-- ==== Sys2Proof/Word.lean ====
section
/-! DEFINITION. The data types of spec/00_scope.md section 5: bytes, 32-bit register words, 16-byte blocks and the
other fixed-length byte strings of the engine (R13, R35, R36). -/

namespace Sys2Proof

/-- One byte, bit 7 the most significant (R13). -/
abbrev Byte := BitVec 8

/-- The content of a 32-bit register of the window: a number, not a byte string (R13, R63). -/
abbrev Word := BitVec 32

/-- A byte string of length 16 (R13). As a cipher state, byte `r + 4*c` stands in row `r`, column `c` (R120). -/
abbrev Block := Vector Byte 16

/-- The 32-byte key, byte 0 first (R7, R35). -/
abbrev Key := Vector Byte 32

/-- The 15-byte nonce, byte 0 first (R7). -/
abbrev Nonce := Vector Byte 15

/-- Seventeen blocks: a key lane `KL[0..16]` (R36) or a resolved subtweakkey array `STK[0..16]` (R128). -/
abbrev RoundKeys := Vector Block 17

/-- `zeros(16)` (R13). -/
def Block.zeros : Block := #v[0, 0, 0, 0, 0, 0, 0, 0, 0, 0, 0, 0, 0, 0, 0, 0]

end Sys2Proof
end

