-- ==== Sys2Proof/Machine/Bytes.lean ====
section
/-! DEFINITION. Byte strings and their operators (spec/00_scope.md R13, R14) and the chunking of R207. A byte string of
any length is a `List Byte`. -/

namespace Sys2Proof.Machine

/-- `a ^ b` on blocks, bytewise (R14). -/
def xorBlock (a b : Block) : Block := Vector.ofFn fun k => a[k] ^^^ b[k]

/-- `a ^ b` on byte strings, bytewise, as long as the shorter of the two (R14; R215 uses the first bytes of a keystream
block against a shorter residue). -/
def xorBytes (a b : List Byte) : List Byte := List.zipWith (· ^^^ ·) a b

/-- Byte `k` of `BE64(n)`, most significant byte first (R14). -/
def be64 (n : Nat) : Vector Byte 8 := Vector.ofFn fun k => BitVec.ofNat 8 (n >>> (8 * (7 - k.val)))

/-- The block of the 16 bytes of `x` from position `at` on. -/
def blockAt (x : List Byte) (pos : Nat) : Block := Vector.ofFn fun k => x.getD (pos + k.val) 0

/-- `X[16*j .. 16*j + m)` with `m = min(16, L - 16*j)`: chunk `j` of a byte string, short only at its end (R207,
R215). -/
def chunk (x : List Byte) (j : Nat) : List Byte := (x.drop (16 * j)).take 16

/-- `ceil(L / 16)`. -/
def ceilBlocks (len : Nat) : Nat := (len + 15) / 16

end Sys2Proof.Machine
end

