-- ==== Sys2Proof/Machine/KeySchedule.lean ====
section
/-! DEFINITION. The subtweakkey derivation of spec/41_subtweakkey.md and the tweakable block cipher `E` of R129. -/

namespace Sys2Proof.Machine

/-- The index list `H` of R151. -/
def hIndex : Vector (Fin 16) 16 := #v[1, 6, 11, 12, 5, 10, 15, 0, 9, 14, 3, 4, 13, 2, 7, 8]

/-- `h` of R151: `u[k] = t[H[k]]`. -/
def hPerm (t : Block) : Block := Vector.ofFn fun k => t[hIndex[k]]

/-- `LFSR2` of R152 on one byte. -/
def lfsr2Byte (x : Byte) : Byte := (x <<< 1) ||| (((x >>> 7) ^^^ (x >>> 5)) &&& 0x01)

/-- `LFSR3` of R153 on one byte. -/
def lfsr3Byte (x : Byte) : Byte := (x >>> 1) ||| (((x <<< 7) ^^^ (x <<< 1)) &&& 0x80)

/-- `LFSR2` of R152, each byte treated alone. -/
def lfsr2 (t : Block) : Block := Vector.ofFn fun k => lfsr2Byte t[k]

/-- `LFSR3` of R153, each byte treated alone. -/
def lfsr3 (t : Block) : Block := Vector.ofFn fun k => lfsr3Byte t[k]

/-- `RCON` of R155. -/
def rcon : Vector Byte 17 :=
  #v[0x2f, 0x5e, 0xbc, 0x63, 0xc6, 0x97, 0x35, 0x6a, 0xd4, 0xb3, 0x7d, 0xfa, 0xef, 0xc5, 0x91, 0x39, 0x72]

/-- `RC(i)` of R156. -/
def roundConst (i : Fin 17) : Block :=
  #v[0x01, 0x02, 0x04, 0x08, rcon[i], rcon[i], rcon[i], rcon[i], 0, 0, 0, 0, 0, 0, 0, 0]

/-- Lane 3 after `i` advances: it starts from `K[0..16)` (R157) and each advance is `h(LFSR3(.))` (R158). -/
def keyLane3 (k : Key) : Nat → Block
  | 0 => Vector.ofFn fun j => k[j.val]
  | i + 1 => hPerm (lfsr3 (keyLane3 k i))

/-- Lane 2 after `i` advances: it starts from `K[16..32)` (R157) and each advance is `h(LFSR2(.))` (R158). -/
def keyLane2 (k : Key) : Nat → Block
  | 0 => Vector.ofFn fun j => k[16 + j.val]
  | i + 1 => hPerm (lfsr2 (keyLane2 k i))

/-- `KeyLane` of R158: `KL[i] = tk2 ^ tk3` after `i` advances, no round constant in it. -/
def keyLane (k : Key) : RoundKeys := Vector.ofFn fun i => xorBlock (keyLane2 k i.val) (keyLane3 k i.val)

/-- Entry `i` of `TweakLane` of R160: the tweak advanced `i` times through `h`. -/
def tweakLane (t : Block) : Nat → Block
  | 0 => t
  | i + 1 => hPerm (tweakLane t i)

/-- `DeriveSTK` of R162: `STK[i] = KL[i] ^ TL[i] ^ RC(i)`. -/
def deriveStk (kl : RoundKeys) (t : Block) : RoundKeys :=
  Vector.ofFn fun i => xorBlock (xorBlock kl[i] (tweakLane t i.val)) (roundConst i)

/-- `E(KL, T, P)` of R129, the tweakable block cipher. -/
def tbcE (kl : RoundKeys) (t p : Block) : Block := encryptStk (deriveStk kl t) p

end Sys2Proof.Machine
end

