-- ==== Sys2Proof/Machine/Aead.lean ====
section
/-! DEFINITION. The two passes of the mode (spec/43_aead_passes.md): tweak encoding, padding, the authentication pass,
the encryption pass, SealBytes and OpenBytes. `em` is the parameter `EMPTY_MARKER` throughout (R208). -/

namespace Sys2Proof.Machine

/-- `PFX_MSG` (R201). -/
def pfxMsg : BitVec 4 := 0x0
/-- `PFX_TAG` (R201). -/
def pfxTag : BitVec 4 := 0x1
/-- `PFX_AD` (R201). -/
def pfxAd : BitVec 4 := 0x2
/-- `PFX_MSG_FINAL` (R201). -/
def pfxMsgFinal : BitVec 4 := 0x4
/-- `PFX_AD_FINAL` (R201). -/
def pfxAdFinal : BitVec 4 := 0x6

/-- Byte 0 of a tweak with a prefix: the prefix in the high nibble, four zero bits below (R200, R201). -/
def prefixByte (pfx : BitVec 4) : Byte := pfx ++ 0#4

/-- `TagTweak(prefix, i)` of R203: `[prefix << 4] || zeros(7) || BE64(i)`. -/
def tagTweak (pfx : BitVec 4) (i : Nat) : Block := Vector.ofFn fun k =>
  if k.val = 0 then prefixByte pfx
  else if h : 8 ≤ k.val then (be64 i)[k.val - 8]'(by omega)
  else 0

/-- A byte followed by the 15 nonce bytes: the shape of `NonceTweak` and `NonceBlock` (R204, R209). -/
def headedNonce (b : Byte) (n : Nonce) : Block := Vector.ofFn fun k =>
  if h : k.val = 0 then b else n[k.val - 1]'(by omega)

/-- `NonceTweak(N)` of R204: `[0x10] || N`. -/
def nonceTweak (n : Nonce) : Block := headedNonce (prefixByte pfxTag) n

/-- `NonceBlock(N)` of R209: `[0x00] || N`, the block every keystream call encrypts. -/
def nonceBlock (n : Nonce) : Block := headedNonce 0x00 n

/-- `EncTweak(tag, j)` of R205: bit 7 of byte 0 forced to 1, `BE64(j)` exclusive-ored into bytes 8 to 15. -/
def encTweak (tag : Block) (j : Nat) : Block := Vector.ofFn fun k =>
  if k.val = 0 then tag[k] ||| 0x80
  else if h : 8 ≤ k.val then tag[k] ^^^ (be64 j)[k.val - 8]'(by omega)
  else tag[k]

/-- `Pad(X)` of R206, for `len(X) <= 15`: `X || [0x80] || zeros(15 - len(X))`. -/
def padBlock (x : List Byte) : Block := Vector.ofFn fun k =>
  if k.val < x.length then x.getD k.val 0 else if k.val = x.length then 0x80 else 0

/-- Whether a stream of length `len` has a final (padded) block (R208, R210). -/
def hasFinalBlock (em : Bool) (len : Nat) : Bool := decide (len % 16 ≠ 0) || (em && decide (len = 0))

/-- The accumulator after the full blocks of a stream, the loop of R210. -/
def fullBlocksAcc (kl : RoundKeys) (pfull : BitVec 4) (x : List Byte) : Block :=
  (List.range (x.length / 16)).foldl
    (fun a i => xorBlock a (tbcE kl (tagTweak pfull i) (blockAt x (16 * i)))) Block.zeros

/-- `StreamAcc(KL, pfull, pfinal, X)` of R210. -/
def streamAcc (em : Bool) (kl : RoundKeys) (pfull pfinal : BitVec 4) (x : List Byte) : Block :=
  if hasFinalBlock em x.length then
    xorBlock (fullBlocksAcc kl pfull x)
      (tbcE kl (tagTweak pfinal (x.length / 16)) (padBlock (x.drop (16 * (x.length / 16)))))
  else fullBlocksAcc kl pfull x

/-- The accumulator over associated data and message, the first line of R213. -/
def authAcc (em : Bool) (kl : RoundKeys) (ad msg : List Byte) : Block :=
  xorBlock (streamAcc em kl pfxAd pfxAdFinal ad) (streamAcc em kl pfxMsg pfxMsgFinal msg)

/-- `AuthPass(KL, N, A, M)` of R213, with the tag finalization of R212. -/
def authPass (em : Bool) (kl : RoundKeys) (n : Nonce) (ad msg : List Byte) : Block :=
  tbcE kl (nonceTweak n) (authAcc em kl ad msg)

/-- Keystream block `KS_j` of R214. -/
def keystreamBlock (kl : RoundKeys) (n : Nonce) (tag : Block) (j : Nat) : Block :=
  tbcE kl (encTweak tag j) (nonceBlock n)

/-- `KeystreamXor(KL, N, tag, X)` of R215: chunk `j` of `X` against the first bytes of `KS_j`. -/
def keystreamXor (kl : RoundKeys) (n : Nonce) (tag : Block) (x : List Byte) : List Byte :=
  (List.range (ceilBlocks x.length)).flatMap fun j => xorBytes (chunk x j) (keystreamBlock kl n tag j).toList

/-- `SealBytes(KL, N, A, M)` of R216: ciphertext then tag. -/
def sealBytes (em : Bool) (kl : RoundKeys) (n : Nonce) (ad msg : List Byte) : List Byte :=
  keystreamXor kl n (authPass em kl n ad msg) msg ++ (authPass em kl n ad msg).toList

/-- The ciphertext body of `OPEN`'s input, `X[0 .. len(X) - 16)` (R217). -/
def openBody (x : List Byte) : List Byte := x.take (x.length - 16)

/-- The claimed tag of `OPEN`'s input, its last 16 bytes (R217). -/
def openClaim (x : List Byte) : Block := blockAt x (x.length - 16)

/-- The candidate plaintext `M'` of R217. -/
def openCandidate (kl : RoundKeys) (n : Nonce) (x : List Byte) : List Byte :=
  keystreamXor kl n (openClaim x) (openBody x)

/-- `OpenBytes(KL, N, A, X)` of R217; `none` is `Reject`. The comparison is over all 16 bytes. -/
def openBytes (em : Bool) (kl : RoundKeys) (n : Nonce) (ad x : List Byte) : Option (List Byte) :=
  if x.length < 16 then none
  else if authPass em kl n ad (openCandidate kl n x) = openClaim x then some (openCandidate kl n x)
  else none

end Sys2Proof.Machine
end

