-- ==== Sys2Proof/Config.lean ====
section
/-! DEFINITION. What a platform fixes once for a run (the parameters of spec/00_scope.md R9), the constants of R7 and
R8, and the values the spec leaves unspecified, as opaque constants that nothing can evaluate. -/

namespace Sys2Proof

/-- The implementation parameters of R9. They are fixed for a run (R39): every state carries them and no step changes
them, so that a statement about every state is a statement about every admissible platform. -/
structure Config where
  /-- `DMEM_SIZE`: bytes in the data memory, 64 to 2^32 (R9, R60). -/
  dmemSize : Nat
  /-- `HWCAP`: the strap that says the hardware-accelerated backend is present (R33). -/
  hwcap : Bool
  /-- `EMPTY_MARKER`: whether a zero-length stream contributes one padded block (R208); default off. -/
  emptyMarker : Bool
  /-- `REG_BASE`: where the platform maps the register window; no rule uses it (R75). -/
  regBase : Nat
  deriving DecidableEq, Repr

/-- The parameter values the spec's test vectors use: `DMEM_SIZE = 65536`, `HWCAP = 0`, `EMPTY_MARKER = 0` (R9).
DESIGN CHOICE (notes/assumptions/1.md): the platform of `State.reset`, with `REG_BASE = 0`. -/
def Config.vectors : Config :=
  { dmemSize := 65536, hwcap := false, emptyMarker := false, regBase := 0 }

/-- `KeySize` of R7, in bytes. -/
def Config.keySize : Nat := 32
/-- `NonceSize` of R7, in bytes. -/
def Config.nonceSize : Nat := 15
/-- `TagSize` of R7, in bytes. -/
def Config.tagSize : Nat := 16
/-- `BlockSize` of R7, in bytes. -/
def Config.blockSize : Nat := 16
/-- `Rounds` of R8. -/
def Config.rounds : Nat := 16
/-- `STKCount = Rounds + 1` of R8. -/
def Config.stkCount : Nat := Config.rounds + 1
/-- `STKSize` of R8, in bytes. -/
def Config.stkSize : Nat := 16

/-- Free value: how far along the running command's path a `STATUS` read while busy looks (R29, U2 of
spec/93_implementation_defined.md). Applied to the state's counter `freeCount`; notes/assumptions/4.md. -/
opaque Config.statusPhaseDraw : Nat → Nat

/-- Free value: a byte of the output region of a command that a reset abandoned (R351, U5 of
spec/93_implementation_defined.md). Applied to the state's counter `freeCount`; notes/assumptions/5.md. -/
opaque Config.abandonedByte : Nat → Byte

end Sys2Proof
end

