-- ==== Sys2Proof/Syntax.lean ====
section
/-! DEFINITION. The commands of spec/30_encoding.md R95: one constructor per row of spec/opcode_table.json. -/

namespace Sys2Proof

/-- The four backends of R2 and R93, in the order of their numbers 0 to 3. -/
inductive Backend where
  /-- 0, `CT32`: bit-sliced, narrow word. -/
  | ct32
  /-- 1, `CT64`: bit-sliced, wide word. -/
  | ct64
  /-- 2, `HW`: hardware-accelerated, present when `HWCAP = 1`. -/
  | hw
  /-- 3, `VARTIME`: variable-time, table-based. -/
  | varTime
  deriving DecidableEq, Repr

/-- A command of the engine. All operands but the backend number of `SELB` and the lane count of `TBCKS` and
`TBCTAG` stand in the descriptor registers (R92). -/
inductive Instr where
  /-- `NOP`, 0x00000000 (R271). -/
  | nop
  /-- `NEW`, 0x01000000: load a key (R243). -/
  | aeadNew
  /-- `SEAL`, 0x02000000: authenticated encryption (R247). -/
  | aeadSeal
  /-- `OPEN`, 0x03000000: verified decryption (R252). -/
  | aeadOpen
  /-- `CLR`, 0x04000000: erase the key (R273). -/
  | clr
  /-- `SELB b`, 0x05000000 to 0x05000003: select the backend (R276). -/
  | selb (b : Backend)
  /-- `TBCENC`, 0x10000000: encrypt one block (R183). -/
  | tbcEnc
  /-- `TBCKS.x1`, 0x11000000: one keystream block (R186). -/
  | tbcKsX1
  /-- `TBCKS.x2`, 0x11000001: two keystream blocks (R186). -/
  | tbcKsX2
  /-- `TBCKS.x4`, 0x11000002: four keystream blocks (R186). -/
  | tbcKsX4
  /-- `TBCTAG.x1`, 0x12000000: accumulate one block (R189). -/
  | tbcTagX1
  /-- `TBCTAG.x2`, 0x12000001: accumulate two blocks (R189). -/
  | tbcTagX2
  /-- `TBCTAG.x4`, 0x12000002: accumulate four blocks (R189). -/
  | tbcTagX4
  deriving DecidableEq, Repr

end Sys2Proof
end

