-- ==== Sys2Proof/WellFormed.lean ====
section
/-! DEFINITION. The checks of spec/00_scope.md R9 on the parameters and of spec/30_encoding.md R97 on a command word,
written from those rules and not from the decoder. -/

namespace Sys2Proof

/-- The constraints of R9: `64 <= DMEM_SIZE <= 2^32`, and `REG_BASE` word aligned. -/
def Config.wellFormed (c : Config) : Bool :=
  decide (64 ≤ c.dmemSize) && decide (c.dmemSize ≤ 2 ^ 32) && decide (c.regBase % 4 = 0)

/-- Well-formedness of a command as syntax. The only operand in the word is the backend number of `SELB`, and its type
holds exactly the four values R93 makes legal, so no term is ill formed; the checks that can fail are those on the
word, `CommandWord.wellFormed`. -/
def Instr.wellFormed : Instr → Bool
  | .nop => true
  | .aeadNew => true
  | .aeadSeal => true
  | .aeadOpen => true
  | .clr => true
  | .selb _ => true
  | .tbcEnc => true
  | .tbcKsX1 => true
  | .tbcKsX2 => true
  | .tbcKsX4 => true
  | .tbcTagX1 => true
  | .tbcTagX2 => true
  | .tbcTagX4 => true

/-- R91, R97: the field `RSV` (bits 23 to 8) is 0. -/
def CommandWord.reservedClear (w : Word) : Bool := w.extractLsb' 8 16 == 0

/-- R95, R97: `OPC` (bits 31 to 24) is in the opcode map. -/
def CommandWord.opcodeKnown (w : Word) : Bool :=
  [0x00, 0x01, 0x02, 0x03, 0x04, 0x05, 0x10, 0x11, 0x12].contains (w.extractLsb' 24 8).toNat

/-- R92, R97: a format Z word has `IMM = 0`. -/
def CommandWord.formatZ (w : Word) : Bool :=
  !([0x00, 0x01, 0x02, 0x03, 0x04, 0x10].contains (w.extractLsb' 24 8).toNat) || w.extractLsb' 0 8 == 0

/-- R92, R97: a format B or L word has `IMM[7:2] = 0`. -/
def CommandWord.formatBL (w : Word) : Bool :=
  !([0x05, 0x11, 0x12].contains (w.extractLsb' 24 8).toNat) || w.extractLsb' 2 6 == 0

/-- R94, R97: a format L word has a lane code other than 3. -/
def CommandWord.laneCode (w : Word) : Bool :=
  !([0x11, 0x12].contains (w.extractLsb' 24 8).toNat) || w.extractLsb' 0 2 != 3

/-- The words R97 does not list as illegal. -/
def CommandWord.wellFormed (w : Word) : Bool :=
  CommandWord.reservedClear w && CommandWord.opcodeKnown w && CommandWord.formatZ w && CommandWord.formatBL w &&
    CommandWord.laneCode w

end Sys2Proof
end

