-- ==== Sys2Proof/Decode.lean ====
section
/-! DEFINITION. The decoder of spec/30_encoding.md R96, total and refusing by name, then the encoder of R95. -/

namespace Sys2Proof

/-- Why a command word is illegal (R97). The engine reports every one of them as `E_ILLCMD` (R305). -/
inductive DecodeError where
  /-- `RSV != 0`. -/
  | reservedField
  /-- `OPC` is not in the map of R95. -/
  | unknownOpcode
  /-- A format Z word with `IMM != 0`. -/
  | immediateNotZero
  /-- A format B or L word with `IMM[7:2] != 0`. -/
  | immediateTooWide
  /-- A format L word with lane code 3. -/
  | laneCodeThree
  deriving DecidableEq, Repr

/-- `OPC`, bits 31 to 24 (R91). -/
def opcField (w : Word) : BitVec 8 := w.extractLsb' 24 8

/-- `RSV`, bits 23 to 8 (R91). -/
def rsvField (w : Word) : BitVec 16 := w.extractLsb' 8 16

/-- `IMM`, bits 7 to 0 (R91). -/
def immField (w : Word) : BitVec 8 := w.extractLsb' 0 8

/-- The number of a backend (R93), also its code in `STATUS.BACKEND` (R277). -/
def Backend.code : Backend → BitVec 2
  | .ct32 => 0
  | .ct64 => 1
  | .hw => 2
  | .varTime => 3

/-- The backend of a number (R93): all four values are legal. -/
def Backend.ofCode (b : BitVec 2) : Backend :=
  match b.toNat with
  | 0 => .ct32
  | 1 => .ct64
  | 2 => .hw
  | _ => .varTime

/-- Format Z (R92): `IMM` must be 0. -/
def decodeZ (imm : BitVec 8) (i : Instr) : Except DecodeError Instr :=
  if imm = 0 then .ok i else .error .immediateNotZero

/-- Format B (R92, R93): `IMM[7:2]` must be 0 and `IMM[1:0]` is the backend number. -/
def decodeB (imm : BitVec 8) : Except DecodeError Instr :=
  if imm.extractLsb' 2 6 = 0 then .ok (.selb (Backend.ofCode (imm.extractLsb' 0 2)))
  else .error .immediateTooWide

/-- Format L (R92, R94): `IMM[7:2]` must be 0 and the lane code `IMM[1:0]` is 0, 1 or 2. -/
def decodeL (imm : BitVec 8) (x1 x2 x4 : Instr) : Except DecodeError Instr :=
  if imm.extractLsb' 2 6 = 0 then
    match (imm.extractLsb' 0 2).toNat with
    | 0 => .ok x1
    | 1 => .ok x2
    | 2 => .ok x4
    | _ => .error .laneCodeThree
  else .error .immediateTooWide

/-- `decode` of R96: total on the 32-bit words, exactly 16 of them legal. -/
def decode (w : Word) : Except DecodeError Instr :=
  if rsvField w ≠ 0 then .error .reservedField
  else
    match (opcField w).toNat with
    | 0x00 => decodeZ (immField w) .nop
    | 0x01 => decodeZ (immField w) .aeadNew
    | 0x02 => decodeZ (immField w) .aeadSeal
    | 0x03 => decodeZ (immField w) .aeadOpen
    | 0x04 => decodeZ (immField w) .clr
    | 0x05 => decodeB (immField w)
    | 0x10 => decodeZ (immField w) .tbcEnc
    | 0x11 => decodeL (immField w) .tbcKsX1 .tbcKsX2 .tbcKsX4
    | 0x12 => decodeL (immField w) .tbcTagX1 .tbcTagX2 .tbcTagX4
    | _ => .error .unknownOpcode

/-- A command word from its three fields (R91). -/
def assemble (opc : BitVec 8) (imm : BitVec 8) : Word := opc ++ 0#16 ++ imm

/-- The encoder: the word of each command in the opcode map R95. -/
def encode : Instr → Word
  | .nop => assemble 0x00 0
  | .aeadNew => assemble 0x01 0
  | .aeadSeal => assemble 0x02 0
  | .aeadOpen => assemble 0x03 0
  | .clr => assemble 0x04 0
  | .selb b => assemble 0x05 (0#6 ++ b.code)
  | .tbcEnc => assemble 0x10 0
  | .tbcKsX1 => assemble 0x11 0
  | .tbcKsX2 => assemble 0x11 1
  | .tbcKsX4 => assemble 0x11 2
  | .tbcTagX1 => assemble 0x12 0
  | .tbcTagX2 => assemble 0x12 1
  | .tbcTagX4 => assemble 0x12 2

/-- The instruction the decoder reads from an opcode-table row's bits: a command is one 32-bit word (R90), whose bits
above `nbits` are 0. -/
def decodeTableWord (nbits w : Nat) : Option Instr :=
  (decode (BitVec.ofNat 32 (w % 2 ^ nbits))).toOption

end Sys2Proof
end

