-- ==== Sys2Proof/Machine/State.lean ====
section
/-! DEFINITION. The state of the engine (spec/10_state.md), the moves of the host outside it, why a step can stop, and
the state after reset (R40). -/

namespace Sys2Proof.Machine

/-- Why the machine stops with a fault. The engine's own faults (`E_KEYLEN` and the others of R300) are no stops: a
command that takes one goes on to a next state (R310). -/
inductive Fault where
  /-- A host move `HostRead` or `HostWrite` touches `addr .. addr+len-1`, which is not inside `[0, DMEM_SIZE)`, an
  address R60 and R71 say does not exist. Raised by `hostMove`; safe. -/
  | dmemOutside (addr len : Nat)
  deriving DecidableEq, Repr

/-- Why the machine gives a step no meaning. -/
inductive Refusal where
  /-- An arm of `exec` with no meaning yet. Raised by no arm; safe. -/
  | notModelled (mnemonic : String)
  /-- A host access to the register window that is not an aligned 32-bit access: R72 gives it no meaning and says a
  model refuses it. Raised by `hostMove`; safe. -/
  | registerAccessShape (offset size : Nat)
  /-- A host access to `DMEM` while `STATUS.BUSY = 1`: R71 and R363 give the host no such move (U3: refuse). Raised by
  `hostMove`; safe. -/
  | dmemWhileBusy (addr len : Nat)
  deriving DecidableEq, Repr

/-- The sequencer phase, visible in `STATUS[5:3]` (R24, R29), in the order of its codes 0 to 7. -/
inductive Phase where
  | idle | auth | enc | done | dec | reauth | verified | rejected
  deriving DecidableEq, Repr

/-- Which run of blocks the engine is walking (R24); hidden. -/
inductive Stream where
  | none | ad | msg | fin | ks
  deriving DecidableEq, Repr

/-- The fault code held in `ERR[7:0]` (R30, R300), in the order of its codes 0 to 9; codes 10 to 255 are never
written. -/
inductive ErrCode where
  | ok | keyLen | nonceLen | auth | illCmd | noKey | bounds | backend | fatal | overlap
  deriving DecidableEq, Repr

/-- The ten descriptor registers, each 32 bits wide, in the order of R21 (`x[0]` to `x[9]`). -/
structure Descriptors where
  /-- `KEY_ADDR`, offset 0x20. -/
  keyAddr : Word
  /-- `KEY_LEN`, offset 0x24. -/
  keyLen : Word
  /-- `NONCE_ADDR`, offset 0x28. -/
  nonceAddr : Word
  /-- `NONCE_LEN`, offset 0x2C. -/
  nonceLen : Word
  /-- `AD_ADDR`, offset 0x30. -/
  adAddr : Word
  /-- `AD_LEN`, offset 0x34. -/
  adLen : Word
  /-- `SRC_ADDR`, offset 0x38. -/
  srcAddr : Word
  /-- `SRC_LEN`, offset 0x3C. -/
  srcLen : Word
  /-- `DST_ADDR`, offset 0x40. -/
  dstAddr : Word
  /-- `TWK_ADDR`, offset 0x44. -/
  twkAddr : Word
  deriving DecidableEq, Repr

/-- All ten descriptor registers 0 (R40). -/
def Descriptors.zeros : Descriptors := ⟨0, 0, 0, 0, 0, 0, 0, 0, 0, 0⟩

/-- `DMEM` as a list of (address, byte) pairs in one canonical form (`Memory.wf` in Ops.lean): addresses strictly
rising and no entry equal to what an unlisted address reads as (`Memory.unlisted`). -/
abbrev Memory := List Host.Cell

/-- What the host outside the engine can do (R11): register accesses by window offset and access size in bytes, the two
`DMEM` moves of R71, looking at the pin `irq` (R32), and pulsing the reset input (R350). -/
inductive HostMove where
  | regRead (offset size : Nat)
  | regWrite (offset size : Nat) (w : Word)
  | dmemRead (addr len : Nat)
  | dmemWrite (addr : Nat) (bytes : List Byte)
  | sampleIrq
  | pulseReset
  deriving DecidableEq, Repr

/-- What a host move brings back to the host. -/
inductive HostSaw where
  | word (w : Word)
  | bytes (xs : List Byte)
  | pin (high : Bool)
  deriving DecidableEq, Repr

/-- One turn of the interleaving of the two agents of R11. The spec fixes no time (R370), so plain data in the state
says who acts next (DESIGN CHOICE, notes/assumptions/2.md). -/
inductive Turn where
  /-- The host makes a move. -/
  | host (m : HostMove)
  /-- The engine, if busy, goes one position further along its walk `(PHASE, STREAM, IDX)` (R24, R257). -/
  | engineWork
  /-- The engine, if busy, runs the command in progress to its completion (R28). -/
  | engineFinish
  deriving DecidableEq, Repr

/-- The state of the engine: exactly the pieces R20 and R40 list and the descriptor latch of R22. `PARAMS` and `CAPS`
are hard-wired constants (R31, R33) and stand in Flags.lean. The last four fields are the model's own. -/
structure State where
  /-- The parameters of R9, fixed for a run (R39). -/
  cfg : Config
  /-- The descriptor registers (R21). -/
  desc : Descriptors
  /-- The hidden latch of the descriptor registers that the command in progress reads (R22). After the completion it keeps its
  values, DESIGN CHOICE (notes/assumptions/22.md). -/
  latch : Descriptors
  /-- `STATUS.PHASE` (R24, R29). -/
  phase : Phase
  /-- `STREAM` (R24), hidden. -/
  stream : Stream
  /-- `IDX` (R24), hidden. -/
  idx : BitVec 64
  /-- `CMD`: the last accepted word (R26). -/
  cmd : Word
  /-- `STATUS.BUSY` (R27, R28). -/
  busy : Bool
  /-- `STATUS.KEYVALID` (R27, R37). -/
  keyValid : Bool
  /-- `STATUS.FATAL` (R27, R312). -/
  fatal : Bool
  /-- `STATUS.BACKEND` (R27, R277). -/
  backend : Backend
  /-- `ERR` (R30). -/
  err : ErrCode
  /-- `CTRL[0]`, `IE_DONE` (R32). -/
  ieDone : Bool
  /-- `CTRL[1]`, `IE_ERR` (R32). -/
  ieErr : Bool
  /-- `INTSTAT[0]`, `DONE` (R32). -/
  intDone : Bool
  /-- `INTSTAT[1]`, `ERR` (R32). -/
  intErr : Bool
  /-- `OUT_LEN` (R34). -/
  outLen : Word
  /-- `KEY[0..31]` (R35). -/
  key : Key
  /-- `KL[0..16]` (R36). -/
  kl : RoundKeys
  /-- `DMEM` (R60). -/
  dmem : Memory
  /-- The model's own: the index along the command's path of the latest phase a busy `STATUS` read showed (R29:
  successive reads never go backwards). -/
  seenPhase : Nat
  /-- The model's own: the turns still to come, next first. -/
  turns : List Turn
  /-- The model's own: what the host has seen, latest first. -/
  hostSaw : List HostSaw
  /-- The model's own: how many free values have been drawn. -/
  freeCount : Nat
  deriving DecidableEq, Repr

/-- The engine with parameters `c` after reset, every piece of state as the table of R40 says. `DMEM` is unspecified
there (U1) and lists nothing here (DESIGN CHOICE, notes/assumptions/3.md); the latch is unspecified and 0 here
(DESIGN CHOICE, notes/assumptions/6.md). -/
def State.powerOn (c : Config) : State :=
  { cfg := c
    desc := Descriptors.zeros
    latch := Descriptors.zeros
    phase := .idle
    stream := .none
    idx := 0
    cmd := 0
    busy := false
    keyValid := false
    fatal := false
    backend := if c.hwcap then .hw else .ct64
    err := .ok
    ieDone := false
    ieErr := false
    intDone := false
    intErr := false
    outLen := 0
    key := Vector.replicate 32 0
    kl := Vector.replicate 17 Block.zeros
    dmem := []
    seenPhase := 0
    turns := []
    hostSaw := []
    freeCount := 0 }

/-- The machine right after reset (R40, R350), on the platform of the spec's test vectors. -/
def State.reset : State := State.powerOn Config.vectors

end Sys2Proof.Machine
end

