-- ==== Sys2Proof/Machine/Ops.lean ====
section
/-! DEFINITION. The named operations over memory and over the state: reading and writing `DMEM` (spec/20_memory.md),
accepting a command (R26), completing one (R28) and taking a fault (R310). There is no return from a fault (R315): the
next command is accepted as after a success. -/

namespace Sys2Proof.Machine

/-- What an address no entry lists reads as. The spec leaves `DMEM` after power-up unspecified (U1); this is a DESIGN
CHOICE, unsafe (notes/assumptions/3.md). -/
def Memory.unlisted : Byte := 0

/-- The byte at one address (R60). -/
def Memory.get (m : Memory) (a : Nat) : Byte :=
  match m with
  | [] => Memory.unlisted
  | c :: t => if c.1 = a then c.2 else Memory.get t a

/-- Store one byte, keeping the canonical form: a byte equal to what an unlisted address reads as is not listed. -/
def Memory.set (m : Memory) (a : Nat) (v : Byte) : Memory :=
  match m with
  | [] => if v = Memory.unlisted then [] else [(a, v)]
  | c :: t =>
    if a < c.1 then (if v = Memory.unlisted then c :: t else (a, v) :: c :: t)
    else if a = c.1 then (if v = Memory.unlisted then t else (a, v) :: t)
    else c :: Memory.set t a v

/-- The canonical form: addresses strictly rising, no entry equal to what an unlisted address reads as. -/
def Memory.wf (m : Memory) : Bool :=
  match m with
  | [] => true
  | c :: t => decide (c.2 ≠ Memory.unlisted) && t.all (fun d => decide (c.1 < d.1)) && Memory.wf t

/-- Every listed address lies inside `[0, size)` (R60). -/
def Memory.within (size : Nat) (m : Memory) : Bool := m.all fun c => decide (c.1 < size)

/-- `MemRead(a, n)` of R62. -/
def Memory.read (m : Memory) (a n : Nat) : List Byte := (List.range n).map fun k => m.get (a + k)

/-- `MemRead(a, n)` of R62 for a length fixed by the rule: a block, a key or a nonce. -/
def Memory.readVec (m : Memory) (n a : Nat) : Vector Byte n := Vector.ofFn fun k => m.get (a + k.val)

/-- `MemRead(a, 16)`: a block (R120). -/
def Memory.readBlock (m : Memory) (a : Nat) : Block := m.readVec 16 a

/-- `MemWrite(a, len(X), X)` of R62. -/
def Memory.write (m : Memory) (a : Nat) (x : List Byte) : Memory :=
  match x with
  | [] => m
  | b :: t => Memory.write (m.set a b) (a + 1) t

/-- `InBounds(a, n)` of R66, on natural numbers without wrap-around. -/
def inBounds (size a n : Nat) : Bool := decide (n = 0) || decide (a + n ≤ size)

/-- `Overlap((a, n), (b, m))` of R67. -/
def overlap (a n b m : Nat) : Bool := decide (n > 0) && decide (m > 0) && decide (a < b + m) && decide (b < a + n)

/-- The fatal faults: `E_BOUNDS` and `E_OVERLAP` (R312). -/
def ErrCode.isFatal : ErrCode → Bool
  | .bounds => true
  | .overlap => true
  | _ => false

/-- Where `PHASE` rests after a fault: `REJECTED` for `E_AUTH`, else `IDLE` (R310). -/
def ErrCode.restingPhase : ErrCode → Phase
  | .auth => .rejected
  | _ => .idle

/-- What every completion sets (R28): `ERR`, `OUT_LEN`, the final `PHASE`, `INTSTAT.DONE`, `INTSTAT.ERR` when the code
is not 0, `(STREAM, IDX)` back to `(NONE, 0)`, `BUSY` cleared. R38 leaves open what the descriptor latch holds from then to
the next acceptance; that it keeps its values is the model's DESIGN CHOICE (notes/assumptions/22.md). -/
def State.complete (s : State) (code : ErrCode) (outLen : Nat) (ph : Phase) : State :=
  { s with
    err := code
    outLen := BitVec.ofNat 32 outLen
    phase := ph
    stream := .none
    idx := 0
    intDone := true
    intErr := s.intErr || decide (code ≠ .ok)
    busy := false
    seenPhase := 0 }

/-- Completion without fault: `ERR <- 0`, `OUT_LEN` and `PHASE` as the command's rule says. -/
def State.succeed (s : State) (outLen : Nat) (ph : Phase) : State := s.complete .ok outLen ph

/-- TAKING A FAULT, the fault entry of R310 (`raise F` of R242): completion with the fault's code, `OUT_LEN = 0`, its
resting phase, and `STATUS.FATAL` set when it is a fatal one. Nothing else is saved and control goes nowhere. -/
def State.raise (s : State) (f : ErrCode) : State :=
  { s.complete f 0 f.restingPhase with fatal := s.fatal || f.isFatal }

/-- Acceptance of a command word (R26): it is stored in `CMD`, the descriptor registers are latched (R22), `BUSY` is
set, `PHASE <- IDLE` (R25). -/
def State.accept (s : State) (w : Word) : State :=
  { s with
    cmd := w
    latch := s.desc
    busy := true
    phase := .idle
    stream := .none
    idx := 0
    seenPhase := 0 }

/-- The first fault whose condition holds, in the order written (R241, R314): nothing after it is evaluated. -/
def firstFault : List (Bool × ErrCode) → Option ErrCode
  | [] => none
  | c :: t => if c.1 then some c.2 else firstFault t

/-- A command: its checks in order, then its effect; a fault that a check raises is taken, and the command ends. -/
def State.runChecked (s : State) (checks : List (Bool × ErrCode)) (effect : State) :
    Host.Outcome State Fault Refusal :=
  match firstFault checks with
  | some f => .next (s.raise f)
  | none => .next effect

end Sys2Proof.Machine
end

