-- ==== Sys2Proof/Machine/Operands.lean ====
section
/-! DEFINITION. The operands of every command: which descriptor registers it reads (spec/10_state.md R23), the regions
of `DMEM` they name (spec/20_memory.md R70), always through the latch (R22), and the checks on them. -/

namespace Sys2Proof.Machine

/-- A region `(a, n)` of R66: an address and a length. -/
structure Region where
  addr : Nat
  len : Nat
  deriving DecidableEq, Repr

/-- `InBounds` of a region (R66). -/
def Region.inBounds (size : Nat) (r : Region) : Bool := Machine.inBounds size r.addr r.len

/-- `Overlap` of two regions (R67). -/
def Region.overlaps (r q : Region) : Bool := overlap r.addr r.len q.addr q.len

/-- The key region of `NEW`: `(KEY_ADDR, 32)` (R243). -/
def Descriptors.keyRegion (d : Descriptors) : Region := ⟨d.keyAddr.toNat, 32⟩

/-- The nonce region `(NONCE_ADDR, 15)` (R247, R252). -/
def Descriptors.nonceRegion (d : Descriptors) : Region := ⟨d.nonceAddr.toNat, 15⟩

/-- The associated-data region `(AD_ADDR, AD_LEN)` (R247, R252). -/
def Descriptors.adRegion (d : Descriptors) : Region := ⟨d.adAddr.toNat, d.adLen.toNat⟩

/-- The input region `(SRC_ADDR, SRC_LEN)` of `SEAL` and `OPEN` (R247, R252). -/
def Descriptors.srcRegion (d : Descriptors) : Region := ⟨d.srcAddr.toNat, d.srcLen.toNat⟩

/-- The output region of `SEAL`: `(DST_ADDR, SRC_LEN + 16)` (R247). -/
def Descriptors.sealRegion (d : Descriptors) : Region := ⟨d.dstAddr.toNat, d.srcLen.toNat + 16⟩

/-- The output region of `OPEN`: `(DST_ADDR, SRC_LEN - 16)` (R252). -/
def Descriptors.openRegion (d : Descriptors) : Region := ⟨d.dstAddr.toNat, d.srcLen.toNat - 16⟩

/-- `n` consecutive blocks from an address on: 16 bytes each, lowest lane lowest (R180). -/
def laneRegion (a : Word) (n : Nat) : Region := ⟨a.toNat, 16 * n⟩

/-- The regions a command reads, the middle column of the table of R70. -/
def regionsRead (i : Instr) (d : Descriptors) : List Region :=
  match i with
  | .nop => []
  | .aeadNew => [d.keyRegion]
  | .aeadSeal => [d.nonceRegion, d.adRegion, d.srcRegion]
  | .aeadOpen => [d.nonceRegion, d.adRegion, d.srcRegion]
  | .clr => []
  | .selb _ => []
  | .tbcEnc => [laneRegion d.twkAddr 1, laneRegion d.srcAddr 1]
  | .tbcKsX1 => [laneRegion d.twkAddr 1, laneRegion d.srcAddr 1]
  | .tbcKsX2 => [laneRegion d.twkAddr 2, laneRegion d.srcAddr 1]
  | .tbcKsX4 => [laneRegion d.twkAddr 4, laneRegion d.srcAddr 1]
  | .tbcTagX1 => [laneRegion d.twkAddr 1, laneRegion d.srcAddr 1, laneRegion d.dstAddr 1]
  | .tbcTagX2 => [laneRegion d.twkAddr 2, laneRegion d.srcAddr 2, laneRegion d.dstAddr 1]
  | .tbcTagX4 => [laneRegion d.twkAddr 4, laneRegion d.srcAddr 4, laneRegion d.dstAddr 1]

/-- The region a command writes on success, the last column of the table of R70; the empty region for a command that
writes nothing in `DMEM`. -/
def regionWritten (i : Instr) (d : Descriptors) : Region :=
  match i with
  | .nop => ⟨0, 0⟩
  | .aeadNew => ⟨0, 0⟩
  | .aeadSeal => d.sealRegion
  | .aeadOpen => d.openRegion
  | .clr => ⟨0, 0⟩
  | .selb _ => ⟨0, 0⟩
  | .tbcEnc => laneRegion d.dstAddr 1
  | .tbcKsX1 => laneRegion d.dstAddr 1
  | .tbcKsX2 => laneRegion d.dstAddr 2
  | .tbcKsX4 => laneRegion d.dstAddr 4
  | .tbcTagX1 => laneRegion d.dstAddr 1
  | .tbcTagX2 => laneRegion d.dstAddr 1
  | .tbcTagX4 => laneRegion d.dstAddr 1

/-- Some region of the command's row of R70, the written one included, is not in bounds (R66, R70). -/
def outOfBounds (size : Nat) (i : Instr) (d : Descriptors) : Bool :=
  !((regionWritten i d :: regionsRead i d).all fun r => r.inBounds size)

/-- What `SEAL` and `OPEN` forbid of their output region `rd` (R67): overlap with the nonce or the associated data, or
with the input unless both start at the same address. -/
def forbiddenOverlap (d : Descriptors) (rd : Region) : Bool :=
  rd.overlaps d.nonceRegion || rd.overlaps d.adRegion ||
    (rd.overlaps d.srcRegion && decide (d.dstAddr ≠ d.srcAddr))

/-- The nonce of `SEAL` and `OPEN`: `MemRead(NONCE_ADDR, 15)`. -/
def State.nonceOperand (s : State) : Nonce := s.dmem.readVec 15 s.latch.nonceAddr.toNat

/-- The associated data of `SEAL` and `OPEN`: `MemRead(AD_ADDR, AD_LEN)`. -/
def State.adOperand (s : State) : List Byte := s.dmem.read s.latch.adAddr.toNat s.latch.adLen.toNat

/-- The input of `SEAL` and `OPEN`: `MemRead(SRC_ADDR, SRC_LEN)`. -/
def State.srcOperand (s : State) : List Byte := s.dmem.read s.latch.srcAddr.toNat s.latch.srcLen.toNat

/-- The key handed to `NEW`: `MemRead(KEY_ADDR, 32)`. -/
def State.keyOperand (s : State) : Key := s.dmem.readVec 32 s.latch.keyAddr.toNat

/-- The tweak of lane `j`: `MemRead(TWK_ADDR + 16*j, 16)` (R180). -/
def State.laneTweak (s : State) (j : Nat) : Block := s.dmem.readBlock (s.latch.twkAddr.toNat + 16 * j)

/-- The block of lane `j`: `MemRead(SRC_ADDR + 16*j, 16)` (R180). -/
def State.laneBlock (s : State) (j : Nat) : Block := s.dmem.readBlock (s.latch.srcAddr.toNat + 16 * j)

end Sys2Proof.Machine
end

