-- ==== Sys2Proof/Machine/Tbc.lean ====
section
/-! DEFINITION. The block-level commands `TBCENC`, `TBCKS.xN`, `TBCTAG.xN` (spec/42_tbc_commands.md). -/

namespace Sys2Proof.Machine

/-- The checks of R181, in their order, on the regions of the command's row of R70. There is no overlap check. -/
def tbcChecks (i : Instr) (s : State) : List (Bool × ErrCode) :=
  [(s.fatal, .fatal), (!s.keyValid, .noKey), (outOfBounds s.cfg.dmemSize i s.latch, .bounds)]

/-- Write a byte string at `DST_ADDR`. -/
def State.store (s : State) (x : List Byte) : State :=
  { s with dmem := s.dmem.write s.latch.dstAddr.toNat x }

/-- `C = E(KL, T, P)` of R183. -/
def State.encryptedBlock (s : State) : Block := tbcE s.kl (s.laneTweak 0) (s.laneBlock 0)

/-- `S[0] || ... || S[N-1]` of R186: one input block under `n` tweaks. -/
def State.keystreamLanes (s : State) (n : Nat) : List Byte :=
  (List.range n).flatMap fun j => (tbcE s.kl (s.laneTweak j) (s.laneBlock 0)).toList

/-- The accumulator of R189 after `n` lanes; it starts from the 16 bytes at `DST_ADDR`. -/
def State.accumulatedLanes (s : State) (n : Nat) : Block :=
  (List.range n).foldl (fun a j => xorBlock a (tbcE s.kl (s.laneTweak j) (s.laneBlock j)))
    (s.dmem.readBlock s.latch.dstAddr.toNat)

/-- `TBCENC` (R183). -/
def execTbcEnc (s : State) : Host.Outcome State Fault Refusal :=
  s.runChecked (tbcChecks .tbcEnc s) ((s.store s.encryptedBlock.toList).succeed 16 .idle)

/-- `TBCKS.x1` (R186). -/
def execTbcKsX1 (s : State) : Host.Outcome State Fault Refusal :=
  s.runChecked (tbcChecks .tbcKsX1 s) ((s.store (s.keystreamLanes 1)).succeed 16 .idle)

/-- `TBCKS.x2` (R186). -/
def execTbcKsX2 (s : State) : Host.Outcome State Fault Refusal :=
  s.runChecked (tbcChecks .tbcKsX2 s) ((s.store (s.keystreamLanes 2)).succeed 32 .idle)

/-- `TBCKS.x4` (R186). -/
def execTbcKsX4 (s : State) : Host.Outcome State Fault Refusal :=
  s.runChecked (tbcChecks .tbcKsX4 s) ((s.store (s.keystreamLanes 4)).succeed 64 .idle)

/-- `TBCTAG.x1` (R189). -/
def execTbcTagX1 (s : State) : Host.Outcome State Fault Refusal :=
  s.runChecked (tbcChecks .tbcTagX1 s) ((s.store (s.accumulatedLanes 1).toList).succeed 16 .idle)

/-- `TBCTAG.x2` (R189). -/
def execTbcTagX2 (s : State) : Host.Outcome State Fault Refusal :=
  s.runChecked (tbcChecks .tbcTagX2 s) ((s.store (s.accumulatedLanes 2).toList).succeed 16 .idle)

/-- `TBCTAG.x4` (R189). -/
def execTbcTagX4 (s : State) : Host.Outcome State Fault Refusal :=
  s.runChecked (tbcChecks .tbcTagX4 s) ((s.store (s.accumulatedLanes 4).toList).succeed 16 .idle)

end Sys2Proof.Machine
end

