-- ==== Sys2Proof/Machine/AeadCommands.lean ====
section
/-! DEFINITION. The AEAD commands `NEW`, `SEAL`, `OPEN` (spec/44_aead_commands.md). -/

namespace Sys2Proof.Machine

/-- The checks of `NEW`, in the order of R243. -/
def newChecks (s : State) : List (Bool × ErrCode) :=
  [(s.fatal, .fatal), (decide (s.latch.keyLen.toNat ≠ 32), .keyLen),
    (outOfBounds s.cfg.dmemSize .aeadNew s.latch, .bounds)]

/-- The checks of `SEAL`, in the order of R247. -/
def sealChecks (s : State) : List (Bool × ErrCode) :=
  [(s.fatal, .fatal), (!s.keyValid, .noKey), (decide (s.latch.nonceLen.toNat ≠ 15), .nonceLen),
    (outOfBounds s.cfg.dmemSize .aeadSeal s.latch, .bounds),
    (forbiddenOverlap s.latch s.latch.sealRegion, .overlap)]

/-- The checks of `OPEN` before any computing, in the order of R252. -/
def openChecks (s : State) : List (Bool × ErrCode) :=
  [(s.fatal, .fatal), (!s.keyValid, .noKey), (decide (s.latch.nonceLen.toNat ≠ 15), .nonceLen),
    (decide (s.latch.srcLen.toNat < 16), .auth),
    (outOfBounds s.cfg.dmemSize .aeadOpen s.latch, .bounds),
    (forbiddenOverlap s.latch s.latch.openRegion, .overlap)]

/-- Load a key and run the one-time key schedule (R243). -/
def State.loadKey (s : State) (k : Key) : State :=
  { s with key := k, kl := keyLane k, keyValid := true }

/-- `NEW` (R243). -/
def execAeadNew (s : State) : Host.Outcome State Fault Refusal :=
  s.runChecked (newChecks s) ((s.loadKey s.keyOperand).succeed 0 .idle)

/-- The output of `SEAL`: `C || T` over the operands read from `DMEM` (R216, R247). -/
def State.sealResult (s : State) : List Byte :=
  sealBytes s.cfg.emptyMarker s.kl s.nonceOperand s.adOperand s.srcOperand

/-- `SEAL` (R247). -/
def execAeadSeal (s : State) : Host.Outcome State Fault Refusal :=
  s.runChecked (sealChecks s) ((s.store s.sealResult).succeed (s.latch.srcLen.toNat + 16) .done)

/-- The outcome of `OPEN`'s computation over the operands read from `DMEM` (R217, R252): the plaintext, or `none` when
the tags differ. -/
def State.openResult (s : State) : Option (List Byte) :=
  openBytes s.cfg.emptyMarker s.kl s.nonceOperand s.adOperand s.srcOperand

/-- `OPEN` (R252). The candidate plaintext is local to this definition and reaches `DMEM` only after the tags have
compared equal (R254). -/
def execAeadOpen (s : State) : Host.Outcome State Fault Refusal :=
  match firstFault (openChecks s) with
  | some f => .next (s.raise f)
  | none =>
    match s.openResult with
    | some m => .next ((s.store m).succeed (s.latch.srcLen.toNat - 16) .verified)
    | none => .next (s.raise .auth)

end Sys2Proof.Machine
end

