-- ==== Sys2Proof/Machine/System.lean ====
section
/-! DEFINITION. The system commands `NOP`, `CLR`, `SELB` (spec/45_system_commands.md). They read no descriptor register
and touch no `DMEM` byte (R270). -/

namespace Sys2Proof.Machine

/-- `NOP` (R271): overwrites `ERR`, `OUT_LEN` and `PHASE` as every completion does, and nothing else. -/
def execNop (s : State) : Host.Outcome State Fault Refusal :=
  s.runChecked [(s.fatal, .fatal)] (s.succeed 0 .idle)

/-- What `CLR` erases (R273): the key, the key lane and `KEYVALID`. -/
def State.eraseKey (s : State) : State :=
  { s with key := Vector.replicate 32 0, kl := Vector.replicate 17 Block.zeros, keyValid := false }

/-- `CLR` (R273). -/
def execClr (s : State) : Host.Outcome State Fault Refusal :=
  s.runChecked [(s.fatal, .fatal)] (s.eraseKey.succeed 0 .idle)

/-- `SELB b` (R276): the hardware backend only where the strap says it is present. -/
def execSelb (b : Backend) (s : State) : Host.Outcome State Fault Refusal :=
  s.runChecked [(s.fatal, .fatal), (decide (b = .hw) && !s.cfg.hwcap, .backend)]
    ({ s with backend := b }.succeed 0 .idle)

end Sys2Proof.Machine
end

