-- ==== Sys2Proof/Machine/Dispatch.lean ====
section
/-! DEFINITION. One arm per command: what the accepted command does from its acceptance to its completion. -/

namespace Sys2Proof.Machine

def exec (i : Instr) (s : State) : Host.Outcome State Fault Refusal :=
  match i with
  | .nop => Sys2Proof.Machine.execNop s
  | .aeadNew => Sys2Proof.Machine.execAeadNew s
  | .aeadSeal => Sys2Proof.Machine.execAeadSeal s
  | .aeadOpen => Sys2Proof.Machine.execAeadOpen s
  | .clr => Sys2Proof.Machine.execClr s
  | .selb b => Sys2Proof.Machine.execSelb b s
  | .tbcEnc => Sys2Proof.Machine.execTbcEnc s
  | .tbcKsX1 => Sys2Proof.Machine.execTbcKsX1 s
  | .tbcKsX2 => Sys2Proof.Machine.execTbcKsX2 s
  | .tbcKsX4 => Sys2Proof.Machine.execTbcKsX4 s
  | .tbcTagX1 => Sys2Proof.Machine.execTbcTagX1 s
  | .tbcTagX2 => Sys2Proof.Machine.execTbcTagX2 s
  | .tbcTagX4 => Sys2Proof.Machine.execTbcTagX4 s

end Sys2Proof.Machine
end

