-- ==== Sys2Proof/Machine/Fetch.lean ====
section
/-! DEFINITION. Fetching and running the command in progress. A command word is taken from `CMD`, not from memory
(R79). -/

namespace Sys2Proof.Machine

/-- What the command word in `CMD` decodes to (R96). -/
def State.fetch (s : State) : Except DecodeError Instr := decode s.cmd

/-- An accepted word that decodes to `Illegal` takes `E_ILLCMD` (R305); in the fatal state it takes `E_FATAL` like every
other word (R309, R314). -/
def illegalWord (s : State) : Host.Outcome State Fault Refusal :=
  s.runChecked [(s.fatal, .fatal)] (s.raise .illCmd)

/-- The engine runs the command in progress to its completion (R28): every command is one transition (R12). -/
def State.runCommand (s : State) : Host.Outcome State Fault Refusal :=
  match s.fetch with
  | .ok i => exec i s
  | .error _ => illegalWord s

/-- The engine's turn to finish: it runs the command in progress; with none in progress it waits (R352). -/
def State.finishTurn (s : State) : Host.Outcome State Fault Refusal :=
  if s.busy then s.runCommand else .next s

/-- The command word of an opcode-table row: the bits above `nbits` are 0. -/
def tableWord (nbits w : Nat) : Word := BitVec.ofNat 32 (w % 2 ^ nbits)

end Sys2Proof.Machine
end

