-- ==== Sys2Proof/Machine/Flags.lean ====
section
/-! DEFINITION. The words of the control and status registers (spec/10_state.md section 4) and the interrupt pin.
The engine has no condition codes (R37). -/

namespace Sys2Proof.Machine

/-- The code of a phase in `STATUS[5:3]` (R29). -/
def Phase.code : Phase → BitVec 3
  | .idle => 0
  | .auth => 1
  | .enc => 2
  | .done => 3
  | .dec => 4
  | .reauth => 5
  | .verified => 6
  | .rejected => 7

/-- The fault codes of R300. -/
def ErrCode.code : ErrCode → BitVec 8
  | .ok => 0
  | .keyLen => 1
  | .nonceLen => 2
  | .auth => 3
  | .illCmd => 4
  | .noKey => 5
  | .bounds => 6
  | .backend => 7
  | .fatal => 8
  | .overlap => 9

/-- The `STATUS` word of R27, showing the phase `ph`: `[0] BUSY`, `[1] KEYVALID`, `[2] FATAL`, `[5:3] PHASE`,
`[7:6] BACKEND`, the rest 0. -/
def State.statusWord (s : State) (ph : Phase) : Word :=
  0#24 ++ s.backend.code ++ ph.code ++ BitVec.ofBool s.fatal ++ BitVec.ofBool s.keyValid ++ BitVec.ofBool s.busy

/-- The `ERR` word of R30. -/
def State.errWord (s : State) : Word := 0#24 ++ s.err.code

/-- The `CTRL` word of R32. -/
def State.ctrlWord (s : State) : Word := 0#30 ++ BitVec.ofBool s.ieErr ++ BitVec.ofBool s.ieDone

/-- The `INTSTAT` word of R32. -/
def State.intstatWord (s : State) : Word := 0#30 ++ BitVec.ofBool s.intErr ++ BitVec.ofBool s.intDone

/-- `PARAMS`, hard-wired (R31): `BlockSize`, `TagSize`, `NonceSize`, `KeySize` from the top byte down. -/
def paramsWord : Word :=
  BitVec.ofNat 8 Config.blockSize ++ BitVec.ofNat 8 Config.tagSize ++ BitVec.ofNat 8 Config.nonceSize ++
    BitVec.ofNat 8 Config.keySize

/-- `CAPS`, hard-wired by the strap (R33): bit 0 `HWCAP`, bits 7 to 4 the backends present. -/
def capsWord (c : Config) : Word := if c.hwcap then 0x000000F1 else 0x000000B0

/-- Store into `CTRL` (R32): bits 0 and 1; reserved bits ignore the write. -/
def State.writeCtrl (s : State) (w : Word) : State := { s with ieDone := w.getLsbD 0, ieErr := w.getLsbD 1 }

/-- Write 1 to clear into `INTSTAT` (R32). -/
def State.clearIntstat (s : State) (w : Word) : State :=
  { s with intDone := s.intDone && !w.getLsbD 0, intErr := s.intErr && !w.getLsbD 1 }

/-- The output pin `irq`, a level (R32, R321). -/
def State.irq (s : State) : Bool := (s.intDone && s.ieDone) || (s.intErr && s.ieErr)

end Sys2Proof.Machine
end

