-- ==== Sys2Proof/Machine/Sequencer.lean ====
section
/-! DEFINITION. The walk of the sequencer state `(PHASE, STREAM, IDX)` inside one command (spec/10_state.md R24, R25;
spec/44_aead_commands.md R257) and what a `STATUS` read sees of it (R29). No result depends on where the walk stands. -/

namespace Sys2Proof.Machine

/-- The sequencer state of R24. -/
structure SeqPos where
  phase : Phase
  stream : Stream
  idx : Nat
  deriving DecidableEq, Repr

/-- How many `E` calls the authentication pass makes for a stream of `len` bytes: its full blocks and its final block
(R210). -/
def streamBlocks (em : Bool) (len : Nat) : Nat := len / 16 + (if hasFinalBlock em len then 1 else 0)

/-- The first position of a run of `n` blocks, or what follows the run where it is empty. -/
def enterRun (ph : Phase) (st : Stream) (n : Nat) (after : SeqPos) : SeqPos :=
  if n = 0 then after else ⟨ph, st, 0⟩

/-- The position after block `k` of a run of `n` blocks. -/
def nextInRun (ph : Phase) (st : Stream) (k n : Nat) (after : SeqPos) : SeqPos :=
  if k + 1 < n then ⟨ph, st, k + 1⟩ else after

/-- The tag-finalization block, the last of the authentication pass (R212). Its tweak carries no index (R204), so R24 gives
`IDX` no value while `STREAM = FIN`; 0 is the model's DESIGN CHOICE (notes/assumptions/21.md). -/
def finPos (ph : Phase) : SeqPos := ⟨ph, .fin, 0⟩

/-- Where the authentication pass goes on once the associated data is done (R211). -/
def afterAd (ph : Phase) (nMsg : Nat) : SeqPos := enterRun ph .msg nMsg (finPos ph)

/-- Where the authentication pass starts: with the associated data (R211). -/
def authStart (ph : Phase) (nAd nMsg : Nat) : SeqPos := enterRun ph .ad nAd (afterAd ph nMsg)

/-- The next position of `SEAL`: `IDLE -> AUTH -> ENC` (R25, R257), block by block. The last position stays. With an empty
message `ENC` has no block, and its `IDX` 0 is the model's DESIGN CHOICE (notes/assumptions/21.md). -/
def sealNext (nAd nMsg nKs : Nat) (p : SeqPos) : SeqPos :=
  match p.phase, p.stream with
  | .idle, _ => authStart .auth nAd nMsg
  | .auth, .ad => nextInRun .auth .ad p.idx nAd (afterAd .auth nMsg)
  | .auth, .msg => nextInRun .auth .msg p.idx nMsg (finPos .auth)
  | .auth, .fin => ⟨.enc, .ks, 0⟩
  | .enc, .ks => nextInRun .enc .ks p.idx nKs p
  | _, _ => p

/-- The next position of `OPEN`: `IDLE -> DEC -> REAUTH` (R25, R257), block by block. The last position stays. With an empty
message `DEC` has no block, and its `IDX` 0 is the model's DESIGN CHOICE (notes/assumptions/21.md). -/
def openNext (nAd nMsg nKs : Nat) (p : SeqPos) : SeqPos :=
  match p.phase, p.stream with
  | .idle, _ => ⟨.dec, .ks, 0⟩
  | .dec, .ks => nextInRun .dec .ks p.idx nKs (authStart .reauth nAd nMsg)
  | .reauth, .ad => nextInRun .reauth .ad p.idx nAd (afterAd .reauth nMsg)
  | .reauth, .msg => nextInRun .reauth .msg p.idx nMsg (finPos .reauth)
  | _, _ => p

/-- The position the state is at. -/
def State.seqPos (s : State) : SeqPos := ⟨s.phase, s.stream, s.idx.toNat⟩

/-- Put the sequencer at a position. -/
def State.atPos (s : State) (p : SeqPos) : State :=
  { s with phase := p.phase, stream := p.stream, idx := BitVec.ofNat 64 p.idx }

/-- The position after the present one. A command whose checks fail, and every command but `SEAL` and `OPEN`, has no other
phase than `IDLE` (R25, R248, R253). The spec names no `(STREAM, IDX)` for a `TBC` command in progress, nor for any other word
that walks no run of the mode; that they keep `(NONE, 0)` is the model's DESIGN CHOICE (notes/assumptions/24.md). -/
def State.nextPos (s : State) : SeqPos :=
  match decode s.cmd with
  | .ok .aeadSeal =>
    if (firstFault (sealChecks s)).isSome then s.seqPos
    else sealNext (streamBlocks s.cfg.emptyMarker s.latch.adLen.toNat)
      (streamBlocks s.cfg.emptyMarker s.latch.srcLen.toNat) (ceilBlocks s.latch.srcLen.toNat) s.seqPos
  | .ok .aeadOpen =>
    if (firstFault (openChecks s)).isSome then s.seqPos
    else openNext (streamBlocks s.cfg.emptyMarker s.latch.adLen.toNat)
      (streamBlocks s.cfg.emptyMarker (s.latch.srcLen.toNat - 16)) (ceilBlocks (s.latch.srcLen.toNat - 16)) s.seqPos
  | _ => s.seqPos

/-- One position further along the walk. -/
def State.work (s : State) : State := if s.busy then s.atPos s.nextPos else s

/-- The place of a phase on the path of its command (R25): `IDLE` 0, `AUTH` and `DEC` 1, `ENC` and `REAUTH` 2. -/
def Phase.pathIndex : Phase → Nat
  | .auth => 1
  | .dec => 1
  | .enc => 2
  | .reauth => 2
  | _ => 0

/-- The phase at place `k` of the path that leads to `p`, for `k <= p.pathIndex`. -/
def Phase.onPath (p : Phase) (k : Nat) : Phase :=
  match k, p with
  | 0, _ => .idle
  | 1, .enc => .auth
  | 1, .reauth => .dec
  | _, _ => p

/-- The place on the path that a busy `STATUS` read shows (R29): a free draw, not before the latest one shown and not
after the phase the engine is in. -/
def State.drawnIndex (s : State) : Nat :=
  s.seenPhase + Config.statusPhaseDraw s.freeCount % (s.phase.pathIndex - s.seenPhase + 1)

/-- The `STATUS` word a read returns (R27, R29): the final phase when not busy, a draw from the path when busy. -/
def State.statusShown (s : State) : Word :=
  if s.busy then s.statusWord (s.phase.onPath s.drawnIndex) else s.statusWord s.phase

/-- What a `STATUS` read leaves behind: nothing when not busy (R73); when busy, that later reads show no earlier phase
and that a free value has been drawn. -/
def State.afterStatusRead (s : State) : State :=
  if s.busy then { s with seenPhase := s.drawnIndex, freeCount := s.freeCount + 1 } else s

end Sys2Proof.Machine
end

