-- ==== Sys2Proof/Machine/HostPort.lean ====
section
/-! DEFINITION. What the host does to the engine (spec/00_scope.md R11): the register window (spec/10_state.md section 4,
spec/20_memory.md section 5), the two `DMEM` moves (R71), the pin `irq` and the reset input (spec/70_reset_and_hazards.md
section 1). -/

namespace Sys2Proof.Machine

/-- The descriptor register at a window offset (R21). -/
def Descriptors.get (d : Descriptors) (offset : Nat) : Option Word :=
  match offset with
  | 0x20 => some d.keyAddr
  | 0x24 => some d.keyLen
  | 0x28 => some d.nonceAddr
  | 0x2C => some d.nonceLen
  | 0x30 => some d.adAddr
  | 0x34 => some d.adLen
  | 0x38 => some d.srcAddr
  | 0x3C => some d.srcLen
  | 0x40 => some d.dstAddr
  | 0x44 => some d.twkAddr
  | _ => none

/-- Store into the descriptor register at a window offset (R21); no other offset names one. -/
def Descriptors.put (d : Descriptors) (offset : Nat) (w : Word) : Descriptors :=
  match offset with
  | 0x20 => { d with keyAddr := w }
  | 0x24 => { d with keyLen := w }
  | 0x28 => { d with nonceAddr := w }
  | 0x2C => { d with nonceLen := w }
  | 0x30 => { d with adAddr := w }
  | 0x34 => { d with adLen := w }
  | 0x38 => { d with srcAddr := w }
  | 0x3C => { d with srcLen := w }
  | 0x40 => { d with dstAddr := w }
  | 0x44 => { d with twkAddr := w }
  | _ => d

/-- What a read of the register at an aligned offset returns (the table of spec/10_state.md section 4); a reserved
offset reads as 0 (R41). R41 gives no upper end of the range the platform decodes; that every offset from 0x48 on is inside it
is the model's DESIGN CHOICE (notes/assumptions/23.md). -/
def State.readReg (s : State) (offset : Nat) : Word :=
  match offset with
  | 0x00 => s.cmd
  | 0x04 => s.statusShown
  | 0x08 => s.errWord
  | 0x0C => s.ctrlWord
  | 0x10 => s.intstatWord
  | 0x14 => paramsWord
  | 0x18 => capsWord s.cfg
  | 0x1C => s.outLen
  | _ => (s.desc.get offset).getD 0

/-- A write of the register at an aligned offset (R73). A write to `CMD` is the acceptance of a command (R26); while the
engine is busy that write is held and does not come here (`step`). A write to a read-only register or a reserved offset
is ignored (R41), with no upper end of the reserved offsets (DESIGN CHOICE, notes/assumptions/23.md). -/
def State.writeReg (s : State) (offset : Nat) (w : Word) : State :=
  match offset with
  | 0x00 => s.accept w
  | 0x0C => s.writeCtrl w
  | 0x10 => s.clearIntstat w
  | _ => { s with desc := s.desc.put offset w }

/-- The host sees something. -/
def State.observe (s : State) (o : HostSaw) : State := { s with hostSaw := o :: s.hostSaw }

/-- A register read and what it leaves behind: only a `STATUS` read while busy leaves anything (R29, R73). -/
def State.hostRegRead (s : State) (offset : Nat) : State :=
  (if offset = 0x04 then s.afterStatusRead else s).observe (.word (s.readReg offset))

/-- An aligned 32-bit access, the only one the window has (R72). The offset has no upper bound (DESIGN CHOICE,
notes/assumptions/23.md). -/
def alignedAccess (offset size : Nat) : Bool := decide (size = 4) && decide (offset % 4 = 0)

/-- The output region of the command in progress, by its row of R70 with the latched descriptors (R351); the empty
region for an illegal word. -/
def State.abandonedRegion (s : State) : Region :=
  match decode s.cmd with
  | .ok i => regionWritten i s.latch
  | .error _ => ⟨0, 0⟩

/-- `DMEM` after a reset abandoned the command in progress (R351): each byte of its output region that exists holds a
free value, every other byte is unchanged. -/
def State.abandonedDmem (s : State) : Memory :=
  s.dmem.write s.abandonedRegion.addr
    ((List.range (min s.abandonedRegion.len (s.cfg.dmemSize - s.abandonedRegion.addr))).map
      fun k => Config.abandonedByte (s.freeCount + k))

/-- Reset (R350): every piece of state as the table of R40 says, `DMEM` as it was but for a command that was in
progress (R351). The host's own turns and what it has seen are no state of the engine and stay. -/
def State.pulseReset (s : State) : State :=
  { State.powerOn s.cfg with
    dmem := if s.busy then s.abandonedDmem else s.dmem
    turns := s.turns
    hostSaw := s.hostSaw
    freeCount := if s.busy then s.freeCount + s.abandonedRegion.len else s.freeCount }

/-- A host access to `DMEM` (R71): only while the engine is not busy, only inside `[0, DMEM_SIZE)`. -/
def State.dmemMove (s : State) (a n : Nat) (after : State) : Host.Outcome State Fault Refusal :=
  if s.busy then .refused (.dmemWhileBusy a n)
  else if inBounds s.cfg.dmemSize a n then .next after
  else .fault (.dmemOutside a n)

/-- One move of the host. -/
def hostMove (m : HostMove) (s : State) : Host.Outcome State Fault Refusal :=
  match m with
  | .regRead offset size =>
    if alignedAccess offset size then .next (s.hostRegRead offset) else .refused (.registerAccessShape offset size)
  | .regWrite offset size w =>
    if alignedAccess offset size then .next (s.writeReg offset w) else .refused (.registerAccessShape offset size)
  | .dmemRead a n => s.dmemMove a n (s.observe (.bytes (s.dmem.read a n)))
  | .dmemWrite a x => s.dmemMove a x.length { s with dmem := s.dmem.write a x }
  | .sampleIrq => .next (s.observe (.pin s.irq))
  | .pulseReset => .next s.pulseReset

/-- Whether a host move submits a command: a 32-bit write to `CMD` (R26). -/
def HostMove.submits : HostMove → Bool
  | .regWrite offset size _ => decide (offset = 0x00) && decide (size = 4)
  | _ => false

end Sys2Proof.Machine
end

