-- ==== Sys2Proof/Machine/Step.lean ====
section
/-! DEFINITION. One step of the machine: one turn of the engine or of the host. -/

namespace Sys2Proof.Machine

/-- One step. With no turn to come the engine finishes the command in progress, or waits (R352, R370). A host write to
`CMD` while the engine is busy is held: the engine completes first and the write stays the next turn (R26). -/
def step (s : State) : Host.Outcome State Fault Refusal :=
  match s.turns with
  | [] => s.finishTurn
  | .engineFinish :: rest => { s with turns := rest }.finishTurn
  | .engineWork :: rest => .next { s with turns := rest }.work
  | .host m :: rest =>
    if s.busy && m.submits then s.runCommand else hostMove m { s with turns := rest }

/-- `s` with the command word of a table row accepted (R26) and no other turn before the engine runs it: the host's write
to `CMD` stands for the load of a program (notes/assumptions/7.md). -/
def State.withFetchWord (s : State) (nbits w : Nat) : State :=
  { s.accept (tableWord nbits w) with turns := [] }

end Sys2Proof.Machine
end

