-- ==== Sys2Proof/Machine/Assembly.lean ====
section
/-! DEFINITION. The statements of the spec's assembly (spec/30_encoding.md R99, R100) and the turns each one stands for. -/

namespace Sys2Proof.Machine

/-- The registers of the window by name, in the order of their offsets (spec/10_state.md section 4, R21). -/
inductive RegName where
  | cmd | status | err | ctrl | intstat | params | caps | outLen
  | keyAddr | keyLen | nonceAddr | nonceLen | adAddr | adLen | srcAddr | srcLen | dstAddr | twkAddr
  deriving DecidableEq, Repr

/-- The window offset of a register (spec/10_state.md section 4, R21). -/
def RegName.offset : RegName → Nat
  | .cmd => 0x00
  | .status => 0x04
  | .err => 0x08
  | .ctrl => 0x0C
  | .intstat => 0x10
  | .params => 0x14
  | .caps => 0x18
  | .outLen => 0x1C
  | .keyAddr => 0x20
  | .keyLen => 0x24
  | .nonceAddr => 0x28
  | .nonceLen => 0x2C
  | .adAddr => 0x30
  | .adLen => 0x34
  | .srcAddr => 0x38
  | .srcLen => 0x3C
  | .dstAddr => 0x40
  | .twkAddr => 0x44

/-- The buffers that `SETBUF` names (R100). -/
inductive BufName where
  | key | nonce | ad | src
  deriving DecidableEq, Repr

/-- `<name>_ADDR` (R100). -/
def BufName.addrReg : BufName → RegName
  | .key => .keyAddr
  | .nonce => .nonceAddr
  | .ad => .adAddr
  | .src => .srcAddr

/-- `<name>_LEN` (R100). -/
def BufName.lenReg : BufName → RegName
  | .key => .keyLen
  | .nonce => .nonceLen
  | .ad => .adLen
  | .src => .srcLen

/-- The statements of R99 and the one expansion of R100 that is more than another spelling. -/
inductive Statement where
  /-- A command statement: a mnemonic of R95. -/
  | command (i : Instr)
  /-- `WR <reg>, <value>`. -/
  | wr (r : RegName) (w : Word)
  /-- `RD <reg>`. -/
  | rd (r : RegName)
  /-- `DM <addr>, <hex bytes>`: `HostWrite`. -/
  | dm (addr : Nat) (bytes : List Byte)
  /-- `DR <addr>, <n>`: `HostRead`. -/
  | dr (addr len : Nat)
  /-- `SETBUF <name>, <addr>, <len>`. -/
  | setbuf (b : BufName) (addr len : Word)
  deriving DecidableEq, Repr

/-- The host's write of a whole register. -/
def RegName.writeTurn (r : RegName) (w : Word) : Turn := .host (.regWrite r.offset 4 w)

/-- What a statement means (R99, R100): a command statement writes the command's word to `CMD` and waits until the engine has
completed it. -/
def Statement.turns : Statement → List Turn
  | .command i => [RegName.writeTurn .cmd (encode i), .engineFinish]
  | .wr r w => [r.writeTurn w]
  | .rd r => [.host (.regRead r.offset 4)]
  | .dm a x => [.host (.dmemWrite a x)]
  | .dr a n => [.host (.dmemRead a n)]
  | .setbuf b a n => [b.addrReg.writeTurn a, b.lenReg.writeTurn n]

/-- The mnemonic of a command, as R95 and the opcode table spell it; the backend number of `SELB` is its operand. -/
def mnemonic : Instr → String
  | .nop => "NOP"
  | .aeadNew => "NEW"
  | .aeadSeal => "SEAL"
  | .aeadOpen => "OPEN"
  | .clr => "CLR"
  | .selb _ => "SELB"
  | .tbcEnc => "TBCENC"
  | .tbcKsX1 => "TBCKS.x1"
  | .tbcKsX2 => "TBCKS.x2"
  | .tbcKsX4 => "TBCKS.x4"
  | .tbcTagX1 => "TBCTAG.x1"
  | .tbcTagX2 => "TBCTAG.x2"
  | .tbcTagX4 => "TBCTAG.x4"

/-- The command a command statement names (R99), with the second spellings of R100; `none` for any other text. -/
def commandOf (text : String) : Option Instr :=
  match text with
  | "NOP" => some .nop
  | "NEW" => some .aeadNew
  | "SEAL" => some .aeadSeal
  | "OPEN" => some .aeadOpen
  | "CLR" => some .clr
  | "SELB 0" => some (.selb .ct32)
  | "SELB 1" => some (.selb .ct64)
  | "SELB 2" => some (.selb .hw)
  | "SELB 3" => some (.selb .varTime)
  | "SELB CT32" => some (.selb .ct32)
  | "SELB CT64" => some (.selb .ct64)
  | "SELB HW" => some (.selb .hw)
  | "SELB VARTIME" => some (.selb .varTime)
  | "TBCENC" => some .tbcEnc
  | "TBCKS" => some .tbcKsX1
  | "TBCKS.x1" => some .tbcKsX1
  | "TBCKS.x2" => some .tbcKsX2
  | "TBCKS.x4" => some .tbcKsX4
  | "TBCTAG" => some .tbcTagX1
  | "TBCTAG.x1" => some .tbcTagX1
  | "TBCTAG.x2" => some .tbcTagX2
  | "TBCTAG.x4" => some .tbcTagX4
  | _ => none

/-- A program: the turns of its statements, one after the other. -/
def programTurns (p : List Statement) : List Turn := p.flatMap Statement.turns

end Sys2Proof.Machine
end

