-- ==== Sys2Proof/Safety.lean ====
section
/-! DEFINITION. The terms the claims use: the state after a success and after a fault written out from R28 and R310, when
the regions of a command are legal written out from R66 and R67, and the invariant of the machine. -/

namespace Sys2Proof.Machine

/-- The state after a command that completed without fault (R28), from a state `s` that already holds the command's own
writes: `ERR = 0`, `OUT_LEN = n`, `PHASE = ph`, `INTSTAT.DONE` set, `(STREAM, IDX)` at rest, not busy. The model's own
`seenPhase` restarts (notes/assumptions/4.md), and that the latch keeps its values is the model's DESIGN CHOICE
(notes/assumptions/22.md). -/
def State.afterSuccess (s : State) (n : Nat) (ph : Phase) : State :=
  { s with
    err := .ok, outLen := BitVec.ofNat 32 n, phase := ph, stream := .none, idx := 0, intDone := true, busy := false,
    seenPhase := 0 }

/-- The state after a command that ended in the fault `code` (R310); `fatal` says whether the fault is a fatal one.
The model's own `seenPhase` restarts (notes/assumptions/4.md), and that the latch keeps its values is the model's DESIGN CHOICE
(notes/assumptions/22.md). -/
def State.afterFault (s : State) (code : ErrCode) (ph : Phase) (fatal : Bool) : State :=
  { s with
    err := code, outLen := 0, phase := ph, fatal := s.fatal || fatal, stream := .none, idx := 0, intDone := true,
    intErr := true, busy := false, seenPhase := 0 }

/-- What the engine's turn of a busy state answers, however that turn comes: by default, with no turn to come; by a turn of its
own, then used up; or because the host's next turn is a write to `CMD`, which is held (R26). The list of turns is the model's
own (DESIGN CHOICE, notes/assumptions/2.md). -/
abbrev State.engineTurnIs (s : State) (answer : State → Host.Outcome State Fault Refusal) : Prop :=
  (s.turns = [] → step s = answer s) ∧
  (∀ rest, s.turns = .engineFinish :: rest → step s = answer { s with turns := rest }) ∧
  (∀ w rest, s.turns = .host (.regWrite 0x00 4 w) :: rest → step s = answer s)

/-- The bytes of a region lie inside `DMEM`; an empty region always does (R66). -/
abbrev State.regionInside (s : State) (r : Region) : Prop := r.len = 0 ∨ r.addr + r.len ≤ s.cfg.dmemSize

/-- Two regions share no byte (R67); an empty region shares none. -/
abbrev Region.apart (r q : Region) : Prop :=
  r.len = 0 ∨ q.len = 0 ∨ r.addr + r.len ≤ q.addr ∨ q.addr + q.len ≤ r.addr

/-- The address lies in the region. -/
abbrev Region.holds (r : Region) (a : Nat) : Prop := r.addr ≤ a ∧ a < r.addr + r.len

/-- Every region of the row of R70 of the command `i` lies inside `DMEM`. -/
abbrev State.regionsInside (s : State) (i : Instr) : Prop :=
  s.regionInside (regionWritten i s.latch) ∧ ∀ r ∈ regionsRead i s.latch, s.regionInside r

/-- What R67 asks of the output region `rd` of `SEAL` and `OPEN`: apart from the nonce and the associated data, and apart
from the input or starting where it starts. -/
abbrev State.outputApart (s : State) (rd : Region) : Prop :=
  rd.apart s.latch.nonceRegion ∧ rd.apart s.latch.adRegion ∧
    (rd.apart s.latch.srcRegion ∨ s.latch.dstAddr = s.latch.srcAddr)

/-- No fault of the state applies: not fatal, a key loaded (R181, R247, R252). -/
abbrev State.ready (s : State) : Prop := s.fatal = false ∧ s.keyValid = true

/-- The phases a completed command leaves (R257). -/
def Phase.resting : Phase → Bool
  | .idle => true
  | .done => true
  | .verified => true
  | .rejected => true
  | _ => false

/-- The phases a busy engine is in (R25, R257). -/
def Phase.working : Phase → Bool
  | .idle => true
  | .auth => true
  | .enc => true
  | .dec => true
  | .reauth => true
  | _ => false

/-- The invariant of the machine. -/
structure State.Inv (s : State) : Prop where
  /-- The parameters satisfy R9. -/
  config : s.cfg.wellFormed = true
  /-- `DMEM` is in its canonical form. -/
  canonical : s.dmem.wf = true
  /-- `DMEM` lists no address outside `[0, DMEM_SIZE)` (R60). -/
  within : s.dmem.within s.cfg.dmemSize = true
  /-- Whenever `KEYVALID = 1`, `KL = KeyLane(KEY)` (R36). -/
  keyed : s.keyValid = true → s.kl = keyLane s.key
  /-- Without a key, `KEY` and `KL` are zero: only `NEW` writes anything else (R35, R36, R37). -/
  unkeyed : s.keyValid = false → s.key = Vector.replicate 32 0 ∧ s.kl = Vector.replicate 17 Block.zeros
  /-- Whenever `BUSY = 0`, the phase rests and `(STREAM, IDX) = (NONE, 0)` (R24, R257). -/
  atRest : s.busy = false → s.phase.resting = true ∧ s.stream = .none ∧ s.idx = 0
  /-- A busy engine is in a working phase (R25). -/
  atWork : s.busy = true → s.phase.working = true
  /-- No `STATUS` read has shown a phase later than the engine's (R29). -/
  seen : s.seenPhase ≤ s.phase.pathIndex
  /-- A block index is below 2^28 (R24); at the tag-finalization block it is the model's 0 (notes/assumptions/21.md). -/
  index : s.idx.toNat < 2 ^ 28
  /-- The hardware backend is selected only where it is present (R276, R277). -/
  backend : s.backend = .hw → s.cfg.hwcap = true

/-- The codes a command can leave in `ERR`: 0 and the faults the table of R300 says it raises. -/
def faultsOf : Instr → List ErrCode
  | .nop => [.ok, .fatal]
  | .aeadNew => [.ok, .fatal, .keyLen, .bounds]
  | .aeadSeal => [.ok, .fatal, .noKey, .nonceLen, .bounds, .overlap]
  | .aeadOpen => [.ok, .fatal, .noKey, .nonceLen, .auth, .bounds, .overlap]
  | .clr => [.ok, .fatal]
  | .selb _ => [.ok, .fatal, .backend]
  | .tbcEnc => [.ok, .fatal, .noKey, .bounds]
  | .tbcKsX1 => [.ok, .fatal, .noKey, .bounds]
  | .tbcKsX2 => [.ok, .fatal, .noKey, .bounds]
  | .tbcKsX4 => [.ok, .fatal, .noKey, .bounds]
  | .tbcTagX1 => [.ok, .fatal, .noKey, .bounds]
  | .tbcTagX2 => [.ok, .fatal, .noKey, .bounds]
  | .tbcTagX4 => [.ok, .fatal, .noKey, .bounds]

/-- The commands that leave the key alone: all but `NEW` and `CLR` (R42). -/
def keepsKey : Instr → Bool
  | .aeadNew => false
  | .clr => false
  | _ => true

/-- The general product in the field of R121, `b` read bit by bit from its least significant one. -/
def gfMul (a b : Byte) : Byte :=
  (List.range 8).foldl (fun r k => if b.getLsbD k then r ^^^ (Nat.repeat mul2 k a) else r) 0

/-- The affine map of R123, with `rotl8`. -/
def sboxAffine (b : Byte) : Byte :=
  b ^^^ b.rotateLeft 1 ^^^ b.rotateLeft 2 ^^^ b.rotateLeft 3 ^^^ b.rotateLeft 4 ^^^ 0x63

end Sys2Proof.Machine
end

