-- ==== Sys2Proof/Certificates/Slice0/Obligations.lean ====
section
/-! DEFINITION. The statements for the provers. Each names the rule of spec/ it formalises; where a premise rules out states
that no run reaches it is `State.Inv`, stated as an invariant of its own below. Wherever a statement gives the whole state after
a completion (`State.afterSuccess`, `State.afterFault`), the latch in it is as it was: R38 leaves that open, and it is the
model's DESIGN CHOICE (notes/assumptions/22.md), no part of the rule the statement cites. -/

open Sys2Proof Sys2Proof.Machine

/-! ### Encoding and fetch -/

/-- Decode and encode agree both ways (R95, R96): a word decodes to a command exactly when it is that command's word, so
each legal word has one meaning and no bit of it is dropped. -/
def Obligations.DecodeAcceptsExactlyTheEncodedWord : Prop :=
  ∀ (w : Word) (i : Instr), decode w = .ok i ↔ i.wellFormed = true ∧ w = encode i

/-- The decoder refuses exactly the words that the list of R97 calls illegal. -/
def Obligations.DecoderRefusesExactlyTheIllegalWords : Prop :=
  ∀ w : Word, (∃ i, decode w = .ok i) ↔ CommandWord.wellFormed w = true

/-- The opcode map R95: its sixteen legal words, written out, decode to the commands of their rows, and every word that decodes
to a command is one of them. -/
def Obligations.OpcodeMapWordsDecode : Prop :=
  (decode 0x00000000 = .ok .nop ∧ decode 0x01000000 = .ok .aeadNew ∧ decode 0x02000000 = .ok .aeadSeal ∧
    decode 0x03000000 = .ok .aeadOpen ∧ decode 0x04000000 = .ok .clr ∧ decode 0x05000000 = .ok (.selb .ct32) ∧
    decode 0x05000001 = .ok (.selb .ct64) ∧ decode 0x05000002 = .ok (.selb .hw) ∧
    decode 0x05000003 = .ok (.selb .varTime) ∧ decode 0x10000000 = .ok .tbcEnc ∧
    decode 0x11000000 = .ok .tbcKsX1 ∧ decode 0x11000001 = .ok .tbcKsX2 ∧ decode 0x11000002 = .ok .tbcKsX4 ∧
    decode 0x12000000 = .ok .tbcTagX1 ∧ decode 0x12000001 = .ok .tbcTagX2 ∧ decode 0x12000002 = .ok .tbcTagX4) ∧
  ∀ (w : Word) (i : Instr), decode w = .ok i →
    w ∈ [0x00000000, 0x01000000, 0x02000000, 0x03000000, 0x04000000, 0x05000000, 0x05000001, 0x05000002, 0x05000003,
      0x10000000, 0x11000000, 0x11000001, 0x11000002, 0x12000000, 0x12000001, 0x12000002]

/-- A step runs the accepted command (R26, R28): with a command in progress whose word decodes to `i`, the engine's turn is
`exec i`, whether it comes by default, by a turn of its own, or because the host's write to `CMD` is held. -/
def Obligations.StepRunsTheAcceptedCommand : Prop :=
  ∀ (s : State) (i : Instr), s.busy = true → i.wellFormed = true → decode s.cmd = .ok i → s.engineTurnIs (exec i)

/-- What every other turn does: a host move that is not a held `CMD` write is that move on the state with the turn used up, a
turn `engineWork` is one position of the walk, a free engine with no turn to come waits (R352), and its turn to finish passes.
The moves that can be held are exactly the 32-bit writes to `CMD` (R26). The list of turns is the model's own (DESIGN CHOICE,
notes/assumptions/2.md). -/
def Obligations.StepTakesTheNextTurn : Prop :=
  (∀ m : HostMove, m.submits = true ↔ ∃ w, m = .regWrite 0x00 4 w) ∧
  ∀ s : State,
    (∀ m rest, s.turns = .host m :: rest → (s.busy = false ∨ m.submits = false) →
      step s = hostMove m { s with turns := rest }) ∧
    (∀ rest, s.turns = .engineWork :: rest → step s = .next { s with turns := rest }.work) ∧
    (s.busy = false → s.turns = [] → step s = .next s) ∧
    (∀ rest, s.busy = false → s.turns = .engineFinish :: rest → step s = .next { s with turns := rest })

/-- R305: an accepted word that decodes to `Illegal` completes with `ERR = 4` and changes nothing else; `CMD` holds it. However
the engine's turn comes (`State.engineTurnIs`; DESIGN CHOICE, notes/assumptions/2.md); that the latch is as it was is the
model's DESIGN CHOICE (notes/assumptions/22.md). -/
def Obligations.IllegalWordTakesIllegalCommandFault : Prop :=
  ∀ (s : State) (e : DecodeError), s.busy = true → s.fatal = false → decode s.cmd = .error e →
    s.engineTurnIs (fun u => .next (u.afterFault .illCmd .idle false)) ∧
      (s.afterFault .illCmd .idle false).readReg 0x08 = 4

/-- R309: any word, legal or not, accepted in the fatal state completes with `ERR = 8` and changes nothing else. However the
engine's turn comes (`State.engineTurnIs`; DESIGN CHOICE, notes/assumptions/2.md); that the latch is as it was is the model's
DESIGN CHOICE (notes/assumptions/22.md). -/
def Obligations.FatalStateRefusesEveryWord : Prop :=
  ∀ s : State, s.busy = true → s.fatal = true →
    s.engineTurnIs (fun u => .next (u.afterFault .fatal .idle false)) ∧
      (s.afterFault .fatal .idle false).readReg 0x08 = 8

/-! ### The system commands -/

/-- R271: `NOP`, its word and what it does. The latch is as it was: DESIGN CHOICE, notes/assumptions/22.md. -/
def Obligations.NopOnlyCompletes : Prop :=
  encode .nop = 0x00000000 ∧ ∀ s : State,
    (s.fatal = false → exec .nop s = .next (s.afterSuccess 0 .idle)) ∧
    (s.fatal = true → exec .nop s = .next (s.afterFault .fatal .idle false))

/-- R273: `CLR`, its word, erases `KEY`, `KL` and `KEYVALID`. The latch is as it was: DESIGN CHOICE,
notes/assumptions/22.md. -/
def Obligations.ClrErasesTheKey : Prop :=
  encode .clr = 0x04000000 ∧ ∀ s : State,
    (s.fatal = false → exec .clr s =
      .next (State.afterSuccess
        { s with key := Vector.replicate 32 0, kl := Vector.replicate 17 Block.zeros, keyValid := false } 0 .idle)) ∧
    (s.fatal = true → exec .clr s = .next (s.afterFault .fatal .idle false))

/-- R276: `SELB b`, its words, writes `STATUS.BACKEND`, or takes `E_BACKEND` where the hardware backend is absent. The
latch is as it was: DESIGN CHOICE, notes/assumptions/22.md. -/
def Obligations.SelbSelectsThePresentBackend : Prop :=
  ∀ (b : Backend) (s : State), (encode (.selb b)).toNat = 0x05000000 + b.code.toNat ∧
    (s.fatal = false → (b = .hw → s.cfg.hwcap = true) →
      exec (.selb b) s = .next (State.afterSuccess { s with backend := b } 0 .idle)) ∧
    (s.fatal = false → b = .hw → s.cfg.hwcap = false →
      exec (.selb b) s = .next (s.afterFault .backend .idle false)) ∧
    (s.fatal = true → exec (.selb b) s = .next (s.afterFault .fatal .idle false))

/-! ### The AEAD commands -/

/-- R243: `NEW`, its word, loads the key and runs the key schedule, or takes the first of its faults. The
latch is as it was: DESIGN CHOICE, notes/assumptions/22.md. -/
def Obligations.NewLoadsTheKey : Prop :=
  encode .aeadNew = 0x01000000 ∧ ∀ s : State,
    (s.fatal = false → s.latch.keyLen.toNat = 32 → s.latch.keyAddr.toNat + 32 ≤ s.cfg.dmemSize →
      exec .aeadNew s =
        .next (State.afterSuccess
          { s with
            key := s.dmem.readVec 32 s.latch.keyAddr.toNat
            kl := keyLane (s.dmem.readVec 32 s.latch.keyAddr.toNat)
            keyValid := true } 0 .idle)) ∧
    (s.fatal = false → s.latch.keyLen.toNat ≠ 32 → exec .aeadNew s = .next (s.afterFault .keyLen .idle false)) ∧
    (s.fatal = false → s.latch.keyLen.toNat = 32 → s.cfg.dmemSize < s.latch.keyAddr.toNat + 32 →
      exec .aeadNew s = .next (s.afterFault .bounds .idle true)) ∧
    (s.fatal = true → exec .aeadNew s = .next (s.afterFault .fatal .idle false))

/-- R247: once its checks pass, `SEAL` writes ciphertext and tag at `DST_ADDR` and nothing else but the result registers. -/
def Obligations.SealWritesCiphertextAndTag : Prop :=
  ∀ s : State, s.ready → s.latch.nonceLen.toNat = 15 → s.regionsInside .aeadSeal → s.outputApart s.latch.sealRegion →
    let n : Nonce := s.dmem.readVec 15 s.latch.nonceAddr.toNat
    let a := s.dmem.read s.latch.adAddr.toNat s.latch.adLen.toNat
    let m := s.dmem.read s.latch.srcAddr.toNat s.latch.srcLen.toNat
    let t := authPass s.cfg.emptyMarker s.kl n a m
    exec .aeadSeal s =
      .next (State.afterSuccess
        { s with
          dmem := (s.dmem.write s.latch.dstAddr.toNat (keystreamXor s.kl n t m)).write
            (s.latch.dstAddr.toNat + s.latch.srcLen.toNat) t.toList } (s.latch.srcLen.toNat + 16) .done)

/-- R247, R314: the faults of `SEAL`, each where no earlier one applies. -/
def Obligations.SealTakesItsFirstFault : Prop :=
  ∀ s : State,
    (s.fatal = true → exec .aeadSeal s = .next (s.afterFault .fatal .idle false)) ∧
    (s.fatal = false → s.keyValid = false → exec .aeadSeal s = .next (s.afterFault .noKey .idle false)) ∧
    (s.ready → s.latch.nonceLen.toNat ≠ 15 → exec .aeadSeal s = .next (s.afterFault .nonceLen .idle false)) ∧
    (s.ready → s.latch.nonceLen.toNat = 15 → ¬ s.regionsInside .aeadSeal →
      exec .aeadSeal s = .next (s.afterFault .bounds .idle true)) ∧
    (s.ready → s.latch.nonceLen.toNat = 15 → s.regionsInside .aeadSeal → ¬ s.outputApart s.latch.sealRegion →
      exec .aeadSeal s = .next (s.afterFault .overlap .idle true))

/-- R252: once its checks pass, `OPEN` decrypts under the claimed tag, recomputes the tag over the candidate plaintext, and
writes the plaintext where the two tags are equal, or takes `E_AUTH` with nothing written where they differ. -/
def Obligations.OpenReleasesOnlyVerifiedPlaintext : Prop :=
  ∀ s : State, s.ready → s.latch.nonceLen.toNat = 15 → 16 ≤ s.latch.srcLen.toNat → s.regionsInside .aeadOpen →
    s.outputApart s.latch.openRegion →
    let n : Nonce := s.dmem.readVec 15 s.latch.nonceAddr.toNat
    let a := s.dmem.read s.latch.adAddr.toNat s.latch.adLen.toNat
    let c := s.dmem.read s.latch.srcAddr.toNat (s.latch.srcLen.toNat - 16)
    let claimed := s.dmem.readBlock (s.latch.srcAddr.toNat + s.latch.srcLen.toNat - 16)
    let m := keystreamXor s.kl n claimed c
    (authPass s.cfg.emptyMarker s.kl n a m = claimed →
      exec .aeadOpen s =
        .next (State.afterSuccess { s with dmem := s.dmem.write s.latch.dstAddr.toNat m }
          (s.latch.srcLen.toNat - 16) .verified)) ∧
    (authPass s.cfg.emptyMarker s.kl n a m ≠ claimed →
      exec .aeadOpen s = .next (s.afterFault .auth .rejected false))

/-- R252, R314: the faults of `OPEN` before any computing, each where no earlier one applies. An input shorter than the tag
is `E_AUTH`, the same state a tag mismatch leaves (R255). -/
def Obligations.OpenTakesItsFirstFault : Prop :=
  ∀ s : State,
    (s.fatal = true → exec .aeadOpen s = .next (s.afterFault .fatal .idle false)) ∧
    (s.fatal = false → s.keyValid = false → exec .aeadOpen s = .next (s.afterFault .noKey .idle false)) ∧
    (s.ready → s.latch.nonceLen.toNat ≠ 15 → exec .aeadOpen s = .next (s.afterFault .nonceLen .idle false)) ∧
    (s.ready → s.latch.nonceLen.toNat = 15 → s.latch.srcLen.toNat < 16 →
      exec .aeadOpen s = .next (s.afterFault .auth .rejected false)) ∧
    (s.ready → s.latch.nonceLen.toNat = 15 → 16 ≤ s.latch.srcLen.toNat → ¬ s.regionsInside .aeadOpen →
      exec .aeadOpen s = .next (s.afterFault .bounds .idle true)) ∧
    (s.ready → s.latch.nonceLen.toNat = 15 → 16 ≤ s.latch.srcLen.toNat → s.regionsInside .aeadOpen →
      ¬ s.outputApart s.latch.openRegion → exec .aeadOpen s = .next (s.afterFault .overlap .idle true))

/-- R254: what an `OPEN` that ends in `E_AUTH` leaves does not depend on the bytes of `DMEM` or on the key: two such runs
from states that differ only there end in states that differ only there, as they did before. -/
def Obligations.RejectedOpenRevealsNothing : Prop :=
  ∀ (s : State) (k : Key) (l : RoundKeys) (m : Memory) (t u : State),
    exec .aeadOpen s = .next t → exec .aeadOpen { s with key := k, kl := l, dmem := m } = .next u →
    t.err = .auth → u.err = .auth →
    u = { t with key := k, kl := l, dmem := m } ∧ t.dmem = s.dmem

/-! ### The block-level commands -/

/-- R183: `TBCENC`. -/
def Obligations.TbcEncEncryptsOneBlock : Prop :=
  ∀ s : State, s.ready → s.regionsInside .tbcEnc →
    exec .tbcEnc s =
      .next (State.afterSuccess
        { s with
          dmem := s.dmem.write s.latch.dstAddr.toNat
            (tbcE s.kl (s.dmem.readBlock s.latch.twkAddr.toNat) (s.dmem.readBlock s.latch.srcAddr.toNat)).toList }
        16 .idle)

/-- R186: `TBCKS.xN` writes one keystream block per tweak, all under the one input block. -/
def Obligations.TbcKsWritesOneBlockPerTweak : Prop :=
  ∀ s : State, s.ready →
    let p := s.dmem.readBlock s.latch.srcAddr.toNat
    let lane := fun j : Nat => (tbcE s.kl (s.dmem.readBlock (s.latch.twkAddr.toNat + 16 * j)) p).toList
    let out := fun (x : List Byte) (n : Nat) =>
      State.afterSuccess { s with dmem := s.dmem.write s.latch.dstAddr.toNat x } n .idle
    (s.regionsInside .tbcKsX1 → exec .tbcKsX1 s = .next (out (lane 0) 16)) ∧
    (s.regionsInside .tbcKsX2 → exec .tbcKsX2 s = .next (out (lane 0 ++ lane 1) 32)) ∧
    (s.regionsInside .tbcKsX4 → exec .tbcKsX4 s = .next (out (lane 0 ++ lane 1 ++ lane 2 ++ lane 3) 64))

/-- R189: `TBCTAG.xN` adds one encrypted block per lane into the 16 bytes at `DST_ADDR`. -/
def Obligations.TbcTagAddsEveryLane : Prop :=
  ∀ s : State, s.ready →
    let a := s.dmem.readBlock s.latch.dstAddr.toNat
    let lane := fun j : Nat =>
      tbcE s.kl (s.dmem.readBlock (s.latch.twkAddr.toNat + 16 * j)) (s.dmem.readBlock (s.latch.srcAddr.toNat + 16 * j))
    let out := fun x : Block =>
      State.afterSuccess { s with dmem := s.dmem.write s.latch.dstAddr.toNat x.toList } 16 .idle
    (s.regionsInside .tbcTagX1 → exec .tbcTagX1 s = .next (out (xorBlock a (lane 0)))) ∧
    (s.regionsInside .tbcTagX2 → exec .tbcTagX2 s = .next (out (xorBlock a (xorBlock (lane 0) (lane 1))))) ∧
    (s.regionsInside .tbcTagX4 →
      exec .tbcTagX4 s =
        .next (out (xorBlock a (xorBlock (xorBlock (lane 0) (lane 1)) (xorBlock (lane 2) (lane 3))))))

/-- R181: the faults of the block-level commands, each where no earlier one applies. -/
def Obligations.TbcCommandsTakeTheirFirstFault : Prop :=
  ∀ (i : Instr) (s : State), i ∈ [.tbcEnc, .tbcKsX1, .tbcKsX2, .tbcKsX4, .tbcTagX1, .tbcTagX2, .tbcTagX4] →
    (s.fatal = true → exec i s = .next (s.afterFault .fatal .idle false)) ∧
    (s.fatal = false → s.keyValid = false → exec i s = .next (s.afterFault .noKey .idle false)) ∧
    (s.ready → ¬ s.regionsInside i → exec i s = .next (s.afterFault .bounds .idle true))

/-- R133, R189: `TBCTAG.x2` leaves the memory that two `TBCTAG.x1` leave, and `TBCTAG.x4` the memory that two `TBCTAG.x2`
leave, with `TWK_ADDR` and `SRC_ADDR` advanced between them, where the accumulator lies apart from tweaks and blocks. -/
def Obligations.TagLanesEqualSequentialAccumulation : Prop :=
  ∀ s : State, s.Inv → s.ready →
    (s.regionsInside .tbcTagX2 → (laneRegion s.latch.dstAddr 1).apart (laneRegion s.latch.twkAddr 2) →
      (laneRegion s.latch.dstAddr 1).apart (laneRegion s.latch.srcAddr 2) →
      ∃ t u v, exec .tbcTagX2 s = .next t ∧ exec .tbcTagX1 s = .next u ∧
        exec .tbcTagX1
          { u with latch := { s.latch with twkAddr := s.latch.twkAddr + 16, srcAddr := s.latch.srcAddr + 16 } } =
            .next v ∧
        t.err = .ok ∧ v.err = .ok ∧ ∀ a, t.dmem.get a = v.dmem.get a) ∧
    (s.regionsInside .tbcTagX4 → (laneRegion s.latch.dstAddr 1).apart (laneRegion s.latch.twkAddr 4) →
      (laneRegion s.latch.dstAddr 1).apart (laneRegion s.latch.srcAddr 4) →
      ∃ t u v, exec .tbcTagX4 s = .next t ∧ exec .tbcTagX2 s = .next u ∧
        exec .tbcTagX2
          { u with latch := { s.latch with twkAddr := s.latch.twkAddr + 32, srcAddr := s.latch.srcAddr + 32 } } =
            .next v ∧
        t.err = .ok ∧ v.err = .ok ∧ ∀ a, t.dmem.get a = v.dmem.get a)

/-- R133, R186: `TBCKS.x2` leaves the memory that two `TBCKS.x1` leave, and `TBCKS.x4` the memory that two `TBCKS.x2` leave,
with `TWK_ADDR` and `DST_ADDR` advanced between them, where the output lies apart from tweaks and block. -/
def Obligations.KeystreamLanesEqualSequentialCalls : Prop :=
  ∀ s : State, s.Inv → s.ready →
    (s.regionsInside .tbcKsX2 → (laneRegion s.latch.dstAddr 2).apart (laneRegion s.latch.twkAddr 2) →
      (laneRegion s.latch.dstAddr 2).apart (laneRegion s.latch.srcAddr 1) →
      ∃ t u v, exec .tbcKsX2 s = .next t ∧ exec .tbcKsX1 s = .next u ∧
        exec .tbcKsX1
          { u with latch := { s.latch with twkAddr := s.latch.twkAddr + 16, dstAddr := s.latch.dstAddr + 16 } } =
            .next v ∧
        t.err = .ok ∧ v.err = .ok ∧ ∀ a, t.dmem.get a = v.dmem.get a) ∧
    (s.regionsInside .tbcKsX4 → (laneRegion s.latch.dstAddr 4).apart (laneRegion s.latch.twkAddr 4) →
      (laneRegion s.latch.dstAddr 4).apart (laneRegion s.latch.srcAddr 1) →
      ∃ t u v, exec .tbcKsX4 s = .next t ∧ exec .tbcKsX2 s = .next u ∧
        exec .tbcKsX2
          { u with latch := { s.latch with twkAddr := s.latch.twkAddr + 32, dstAddr := s.latch.dstAddr + 32 } } =
            .next v ∧
        t.err = .ok ∧ v.err = .ok ∧ ∀ a, t.dmem.get a = v.dmem.get a)

/-! ### Every command -/

/-- R28, R370: every command, in every state, completes: not busy, `INTSTAT.DONE` set, `INTSTAT.ERR` set when the code is
not 0 and otherwise as it was, at a resting phase, `(STREAM, IDX) = (NONE, 0)`. -/
def Obligations.EveryCommandCompletes : Prop :=
  ∀ (i : Instr) (s : State), ∃ t, exec i s = .next t ∧ t.busy = false ∧ t.intDone = true ∧
    (t.intErr = true ↔ s.intErr = true ∨ t.err ≠ .ok) ∧ t.phase.resting = true ∧ t.stream = .none ∧ t.idx = 0

/-- What no command writes (R22, R32, R39): the descriptor registers, `CMD`, `CTRL`, the parameters, and the host's side. That
the latch too is as it was after the completion is the model's DESIGN CHOICE (notes/assumptions/22.md). -/
def Obligations.NoCommandWritesOperandRegisters : Prop :=
  ∀ (i : Instr) (s t : State), exec i s = .next t →
    t.desc = s.desc ∧ t.latch = s.latch ∧ t.cmd = s.cmd ∧ t.ieDone = s.ieDone ∧ t.ieErr = s.ieErr ∧ t.cfg = s.cfg ∧
    t.turns = s.turns ∧ t.hostSaw = s.hostSaw ∧ t.freeCount = s.freeCount ∧
    (t.fatal = s.fatal ∨ t.err = .bounds ∨ t.err = .overlap) ∧
    ((∀ b, i ≠ .selb b) → t.backend = s.backend) ∧
    (keepsKey i = true → t.key = s.key ∧ t.kl = s.kl ∧ t.keyValid = s.keyValid)

/-- The memory frame of every command (R68, R70): a byte changes only in a command that completes without fault, and only
inside the output region of its row. -/
def Obligations.CommandsStoreOnlyInTheirOutputRegion : Prop :=
  ∀ (i : Instr) (s t : State), exec i s = .next t →
    ∀ a, (t.err = .ok → ¬ (regionWritten i s.latch).holds a) → t.dmem.get a = s.dmem.get a

/-- R70: what a command does depends only on the bytes of the regions its row says it reads. -/
def Obligations.CommandsReadOnlyTheirInputRegions : Prop :=
  ∀ (i : Instr) (s : State) (m : Memory) (t u : State), s.dmem.wf = true → m.wf = true →
    (∀ r ∈ regionsRead i s.latch, ∀ a, r.holds a → s.dmem.get a = m.get a) →
    exec i s = .next t → exec i { s with dmem := m } = .next u →
    t = { u with dmem := t.dmem } ∧
      (t.err = .ok → ∀ a, (regionWritten i s.latch).holds a → t.dmem.get a = u.dmem.get a)

/-- R310, R311: a command that ends in a fault writes the result registers as the fault entry says, sets `FATAL` for a fatal
fault, and changes nothing else: no byte of `DMEM`, not `KEY`, `KL`, `KEYVALID` or `BACKEND`, no descriptor register, not
`CMD` or `CTRL`. That the latch too is as it was is the model's DESIGN CHOICE (notes/assumptions/22.md). -/
def Obligations.FaultsAreClean : Prop :=
  ∀ (i : Instr) (s t : State), exec i s = .next t → t.err ≠ .ok →
    t = s.afterFault t.err (if t.err = .auth then .rejected else .idle)
      (decide (t.err = .bounds) || decide (t.err = .overlap)) ∧
    t.dmem = s.dmem ∧ t.key = s.key ∧ t.kl = s.kl ∧ t.keyValid = s.keyValid ∧ t.backend = s.backend ∧
    t.outLen = 0 ∧ t.desc = s.desc ∧ t.latch = s.latch ∧ t.cmd = s.cmd ∧ t.ieDone = s.ieDone ∧ t.ieErr = s.ieErr

/-- R300: a command leaves in `ERR` only 0 or the code of a fault the table lists for it; the fatal ones are exactly those
that set `STATUS.FATAL` (R310, R312). -/
def Obligations.CommandsRaiseOnlyTheirFaults : Prop :=
  ∀ (i : Instr) (s t : State), exec i s = .next t →
    t.err ∈ faultsOf i ∧ (t.fatal = true ↔ s.fatal = true ∨ t.err = .bounds ∨ t.err = .overlap) ∧
    (t.err = .fatal ↔ s.fatal = true)

/-- R34: `OUT_LEN` is the number of bytes the command wrote at `DST_ADDR`, and that number always fits. -/
def Obligations.OutLenCountsTheBytesWritten : Prop :=
  ∀ (i : Instr) (s t : State), s.Inv → exec i s = .next t →
    t.outLen.toNat = if t.err = .ok then (regionWritten i s.latch).len else 0

/-- R131: no result, fault, register value or byte of `DMEM` of any command depends on `STATUS.BACKEND`, but that field itself,
which every command but `SELB` keeps. -/
def Obligations.ResultsDoNotDependOnTheBackend : Prop :=
  ∀ (i : Instr) (s t : State) (b : Backend), exec i s = .next t →
    ∃ u, exec i { s with backend := b } = .next u ∧ u = { t with backend := u.backend } ∧
      ((∀ c, i ≠ .selb c) → u.backend = b)

/-- R22: a command reads only the latch: whatever the descriptor registers hold while it runs, its effect is the same. -/
def Obligations.CommandsReadOnlyTheLatch : Prop :=
  ∀ (i : Instr) (s t : State) (d : Descriptors), exec i s = .next t →
    exec i { s with desc := d } = .next { t with desc := d }

/-- R12, R38: where the sequencer stands when the engine is let finish changes no effect of the command. -/
def Obligations.SequencerProgressIsNotObservable : Prop :=
  ∀ (i : Instr) (s : State), exec i s.work = exec i s

/-! ### Every step -/

/-- R42: the per-key state changes only by `NEW`, `CLR` and reset. -/
def Obligations.KeyChangesOnlyByNewClrAndReset : Prop :=
  ∀ s t : State, step s = .next t → ¬ (t.key = s.key ∧ t.kl = s.kl ∧ t.keyValid = s.keyValid) →
    (∃ rest, s.turns = .host .pulseReset :: rest) ∨
    (s.busy = true ∧ s.fatal = false ∧ (decode s.cmd = .ok .aeadNew ∨ decode s.cmd = .ok .clr))

/-- R312, R313: nothing but reset leaves the fatal state; in it no step changes the key, and only the host's own `DMEM` write
changes `DMEM`: no command stores a byte that it could have computed with the key, and `OUT_LEN` stays or becomes 0. -/
def Obligations.OnlyResetLeavesTheFatalState : Prop :=
  ∀ s t : State, step s = .next t → s.fatal = true → (∀ rest, s.turns ≠ .host .pulseReset :: rest) →
    t.fatal = true ∧ t.key = s.key ∧ t.kl = s.kl ∧ t.keyValid = s.keyValid ∧ t.backend = s.backend ∧
    (t.err = s.err ∨ t.err = .fatal) ∧ (t.outLen = s.outLen ∨ t.outLen = 0) ∧
    ((∀ a x rest, s.turns ≠ .host (.dmemWrite a x) :: rest) → t.dmem = s.dmem)

/-- The invariant holds right after reset, on every platform R9 admits. -/
def Obligations.InvHoldsAtReset : Prop :=
  State.reset.Inv ∧ ∀ c : Config, c.wellFormed = true → (State.powerOn c).Inv

/-- THE INVARIANT IS KEPT BY EVERY STEP, from every state that has it: the key lane is that of the key (R36), `DMEM` stays
canonical and inside its size (R60), the phase is a legal one (R25, R257), the block index is below 2^28 (R24; at the
tag-finalization block it is the model's 0, DESIGN CHOICE, notes/assumptions/21.md), the hardware backend is selected only
where present (R276), the parameters do not change (R39). -/
def Obligations.EveryStepKeepsInv : Prop :=
  ∀ s t : State, s.Inv → step s = .next t → t.Inv ∧ t.cfg = s.cfg

/-- A busy engine that the host leaves alone completes its command. R28 and R370 promise only finitely many steps; that a busy
engine with no turn left completes, and so the bound of one step more than there are turns, is the model's DESIGN CHOICE
(notes/assumptions/2.md). -/
def Obligations.BusyEngineCompletes : Prop :=
  ∀ s : State, s.busy = true → (∀ x ∈ s.turns, x = .engineWork ∨ x = .engineFinish) →
    ∃ (k : Nat) (t : State), k ≤ s.turns.length + 1 ∧ Host.Core.run Sys2Proof.core k s = .next t ∧ t.busy = false

/-- R25, R257: while a command runs, the phase moves only along its path, and leaves `IDLE` only where its checks pass;
nothing but `(PHASE, STREAM, IDX)` moves. -/
def Obligations.PhaseMovesOnlyAlongThePath : Prop :=
  ∀ s : State, s.busy = true →
    s.work = { s with phase := s.work.phase, stream := s.work.stream, idx := s.work.idx } ∧
    (s.work.phase = s.phase ∨
      (decode s.cmd = .ok .aeadSeal ∧ (s.phase, s.work.phase) ∈ [(Phase.idle, Phase.auth), (Phase.auth, Phase.enc)] ∧
        ∃ t, exec .aeadSeal s = .next t ∧ t.err = .ok) ∨
      (decode s.cmd = .ok .aeadOpen ∧ (s.phase, s.work.phase) ∈ [(Phase.idle, Phase.dec), (Phase.dec, Phase.reauth)] ∧
        ∃ t, exec .aeadOpen s = .next t ∧ (t.err = .ok ∨ t.err = .auth)))

/-! ### The host's side -/

/-- R26, R22, R25: a write to `CMD` while the engine is free is accepted at once: the word is stored, the descriptor
registers are latched, `BUSY` is set, `PHASE` is `IDLE`; `(STREAM, IDX)` is at its resting value (DEDUCED from R24,
notes/assumptions/8.md). -/
def Obligations.CommandWriteIsAccepted : Prop :=
  ∀ (s : State) (w : Word) (rest : List Turn), s.busy = false → s.turns = .host (.regWrite 0x00 4 w) :: rest →
    step s = .next { s with cmd := w, latch := s.desc, busy := true, phase := .idle, stream := .none, idx := 0,
                            seenPhase := 0, turns := rest }

/-- R26: a write to `CMD` while the engine is busy is held: the command in progress completes first, the write is still the
next turn, and the step after accepts it. -/
def Obligations.CommandWriteIsHeldWhileBusy : Prop :=
  ∀ (s : State) (w : Word) (rest : List Turn), s.busy = true → s.turns = .host (.regWrite 0x00 4 w) :: rest →
    ∃ t, step s = .next t ∧ t.busy = false ∧ t.turns = s.turns ∧ t.cmd = s.cmd ∧
      ∃ u, step t = .next u ∧ u.busy = true ∧ u.cmd = w ∧ u.latch = s.desc ∧ u.turns = rest

/-- R22, R73: a descriptor register, also while busy, reads back the last value written, and nothing else changes, the latch
included. -/
def Obligations.DescriptorRegistersReadBack : Prop :=
  ∀ (s : State) (o : Nat) (w : Word),
    o ∈ [0x20, 0x24, 0x28, 0x2C, 0x30, 0x34, 0x38, 0x3C, 0x40, 0x44] →
    ∃ t, hostMove (.regWrite o 4 w) s = .next t ∧ t = { s with desc := t.desc } ∧ t.readReg o = w ∧
      (∀ p, p ∈ [0x20, 0x24, 0x28, 0x2C, 0x30, 0x34, 0x38, 0x3C, 0x40, 0x44] → p ≠ o → t.readReg p = s.readReg p)

/-- R41: a write to a read-only register or to a reserved offset is ignored, and a reserved offset reads as 0. R41 says this
inside whatever range the platform decodes; that every offset from 0x48 on is inside it, with no upper end, is the model's
DESIGN CHOICE (notes/assumptions/23.md). -/
def Obligations.ReadOnlyAndReservedOffsetsIgnoreWrites : Prop :=
  ∀ (s : State) (o : Nat) (w : Word), o % 4 = 0 → (o ∈ [0x04, 0x08, 0x14, 0x18, 0x1C] ∨ 0x48 ≤ o) →
    hostMove (.regWrite o 4 w) s = .next s ∧
    (0x48 ≤ o → hostMove (.regRead o 4) s = .next { s with hostSaw := .word 0 :: s.hostSaw })

/-- R32, R321: `CTRL` keeps bits 0 and 1 of what is written; a write to `INTSTAT` clears exactly the bits written as 1; the
pin `irq` is the level of the pending and enabled sources. -/
def Obligations.InterruptRegistersFollowTheirRule : Prop :=
  ∀ (s : State) (w : Word),
    (∃ t, hostMove (.regWrite 0x0C 4 w) s = .next t ∧ t = { s with ieDone := t.ieDone, ieErr := t.ieErr } ∧
      t.readReg 0x0C = w &&& 3) ∧
    (∃ t, hostMove (.regWrite 0x10 4 w) s = .next t ∧ t = { s with intDone := t.intDone, intErr := t.intErr } ∧
      t.readReg 0x10 = s.readReg 0x10 &&& ~~~w) ∧
    hostMove .sampleIrq s = .next { s with hostSaw := .pin (s.readReg 0x0C &&& s.readReg 0x10 != 0) :: s.hostSaw }

/-- What each register of the window reads as: the fields of `STATUS` (R27) with the phase codes of R29, the backend codes of
R277 and the final phase while the engine is free (R29), the fault codes of R300 in `ERR` (R30), `CMD` (R26), `CTRL` and
`INTSTAT` (R32), the constants (R31, R33), `OUT_LEN` (R34), and the ten descriptor registers at their offsets (R21). -/
def Obligations.StatusWordHoldsItsFields : Prop :=
  ∀ (s : State) (p : Phase),
    ((s.statusWord p).getLsbD 0 = s.busy ∧ (s.statusWord p).getLsbD 1 = s.keyValid ∧
      (s.statusWord p).getLsbD 2 = s.fatal ∧ (s.statusWord p).extractLsb' 8 24 = 0) ∧
    (p, (s.statusWord p).extractLsb' 3 3) ∈
      [(Phase.idle, (0 : BitVec 3)), (.auth, 1), (.enc, 2), (.done, 3), (.dec, 4), (.reauth, 5), (.verified, 6),
        (.rejected, 7)] ∧
    (s.backend, (s.statusWord p).extractLsb' 6 2) ∈
      [(Backend.ct32, (0 : BitVec 2)), (.ct64, 1), (.hw, 2), (.varTime, 3)] ∧
    (s.busy = false → s.readReg 0x04 = s.statusWord s.phase) ∧
    (s.err, s.readReg 0x08) ∈
      [(ErrCode.ok, (0 : Word)), (.keyLen, 1), (.nonceLen, 2), (.auth, 3), (.illCmd, 4), (.noKey, 5), (.bounds, 6),
        (.backend, 7), (.fatal, 8), (.overlap, 9)] ∧
    s.readReg 0x14 = 0x10100F20 ∧ s.readReg 0x18 = (if s.cfg.hwcap then 0x000000F1 else 0x000000B0) ∧
    s.readReg 0x00 = s.cmd ∧ s.readReg 0x1C = s.outLen ∧
    ((s.readReg 0x0C).getLsbD 0 = s.ieDone ∧ (s.readReg 0x0C).getLsbD 1 = s.ieErr ∧
      (s.readReg 0x0C).extractLsb' 2 30 = 0) ∧
    ((s.readReg 0x10).getLsbD 0 = s.intDone ∧ (s.readReg 0x10).getLsbD 1 = s.intErr ∧
      (s.readReg 0x10).extractLsb' 2 30 = 0) ∧
    s.readReg 0x20 = s.desc.keyAddr ∧ s.readReg 0x24 = s.desc.keyLen ∧ s.readReg 0x28 = s.desc.nonceAddr ∧
    s.readReg 0x2C = s.desc.nonceLen ∧ s.readReg 0x30 = s.desc.adAddr ∧ s.readReg 0x34 = s.desc.adLen ∧
    s.readReg 0x38 = s.desc.srcAddr ∧ s.readReg 0x3C = s.desc.srcLen ∧ s.readReg 0x40 = s.desc.dstAddr ∧
    s.readReg 0x44 = s.desc.twkAddr

/-- R73: an aligned read of a register shows the host what the register reads as and leaves everything else as it was. For
`STATUS` while the engine is free; while it is busy see `BusyStatusReadShowsThePath`. That the reserved offsets have no upper end
is the model's DESIGN CHOICE (notes/assumptions/23.md). -/
def Obligations.RegisterReadsShowTheRegister : Prop :=
  ∀ (s : State) (o : Nat), o % 4 = 0 → (o ≠ 0x04 ∨ s.busy = false) →
    hostMove (.regRead o 4) s = .next { s with hostSaw := .word (s.readReg o) :: s.hostSaw }

/-- R25, R29: a `STATUS` read while busy shows a phase of the running command's path, not before one already shown and not after
the one the engine is in. The path is written out with its places: `IDLE` 0; `AUTH` 1 where the engine is in `AUTH` or `ENC`;
`DEC` 1 where it is in `DEC` or `REAUTH`; `ENC` 2 where it is in `ENC`; `REAUTH` 2 where it is in `REAUTH`. The place drawn is a
free value: this holds whatever it is (DESIGN CHOICE, notes/assumptions/4.md). The other fields of the word stand as before the
completion (R27, R28; DEDUCED, notes/assumptions/20.md). -/
def Obligations.BusyStatusReadShowsThePath : Prop :=
  ∀ s : State, s.busy = true → s.seenPhase ≤ s.phase.pathIndex →
    ∃ (k : Nat) (q : Phase), s.seenPhase ≤ k ∧ k ≤ s.phase.pathIndex ∧
      ((k = 0 ∧ q = .idle) ∨
        (k = 1 ∧ q = .auth ∧ (s.phase = .auth ∨ s.phase = .enc)) ∨
        (k = 1 ∧ q = .dec ∧ (s.phase = .dec ∨ s.phase = .reauth)) ∨
        (k = 2 ∧ q = .enc ∧ s.phase = .enc) ∨
        (k = 2 ∧ q = .reauth ∧ s.phase = .reauth)) ∧
      hostMove (.regRead 0x04 4) s =
        .next { s with hostSaw := .word (s.statusWord q) :: s.hostSaw, seenPhase := k, freeCount := s.freeCount + 1 }

/-- R71, R62: while the engine is free, a read inside `DMEM` shows the bytes at its addresses in their order and changes nothing
else, and bytes the host writes inside `DMEM` read back, with every other byte unchanged. R71 calls a move outside `DMEM` or
while busy not legal; that the one stops with the fault `dmemOutside` and the other with the refusal `dmemWhileBusy`, and that
an empty access is allowed at any address, is the model's reading (DEDUCED, notes/assumptions/14.md). -/
def Obligations.HostDmemMovesReadBack : Prop :=
  ∀ (s : State) (a : Nat),
    (∀ n, s.busy = false → (n = 0 ∨ a + n ≤ s.cfg.dmemSize) →
      hostMove (.dmemRead a n) s = .next { s with hostSaw := .bytes (s.dmem.read a n) :: s.hostSaw } ∧
      (s.dmem.read a n).length = n ∧ ∀ k, k < n → (s.dmem.read a n)[k]? = some (s.dmem.get (a + k))) ∧
    (∀ x : List Byte, s.dmem.wf = true → s.busy = false → (x.length = 0 ∨ a + x.length ≤ s.cfg.dmemSize) →
      ∃ t, hostMove (.dmemWrite a x) s = .next t ∧ t = { s with dmem := t.dmem } ∧
        (∀ k (h : k < x.length), t.dmem.get (a + k) = x[k]) ∧
        (∀ b, ¬ (a ≤ b ∧ b < a + x.length) → t.dmem.get b = s.dmem.get b) ∧
        hostMove (.dmemRead a x.length) t = .next { t with hostSaw := .bytes x :: t.hostSaw }) ∧
    (∀ x : List Byte, s.busy = false → x.length ≠ 0 → s.cfg.dmemSize < a + x.length →
      hostMove (.dmemWrite a x) s = .fault (.dmemOutside a x.length)) ∧
    (∀ n, s.busy = false → n ≠ 0 → s.cfg.dmemSize < a + n → hostMove (.dmemRead a n) s = .fault (.dmemOutside a n)) ∧
    (∀ (x : List Byte) (n : Nat), s.busy = true →
      hostMove (.dmemWrite a x) s = .refused (.dmemWhileBusy a x.length) ∧
      hostMove (.dmemRead a n) s = .refused (.dmemWhileBusy a n))

/-- R72: a narrower, wider or misaligned access to the register window is refused. -/
def Obligations.UnalignedWindowAccessIsRefused : Prop :=
  ∀ (s : State) (o z : Nat) (w : Word), (z ≠ 4 ∨ o % 4 ≠ 0) →
    hostMove (.regRead o z) s = .refused (.registerAccessShape o z) ∧
    hostMove (.regWrite o z w) s = .refused (.registerAccessShape o z)

/-- R40, R350: what the host finds after a reset that abandons no command, from any state, the fatal one included; for a reset
while busy see `ResetAbandonsTheCommandInProgress`. -/
def Obligations.ResetLeavesTheTableValues : Prop :=
  ∀ s : State, s.busy = false →
    ∃ t, hostMove .pulseReset s = .next t ∧
      t.readReg 0x04 = (if s.cfg.hwcap then 0x80 else 0x40) ∧
      (∀ o, o ∈ [0x00, 0x08, 0x0C, 0x10, 0x1C, 0x20, 0x24, 0x28, 0x2C, 0x30, 0x34, 0x38, 0x3C, 0x40, 0x44] →
        t.readReg o = 0) ∧
      t.irq = false ∧ t.key = Vector.replicate 32 0 ∧ t.kl = Vector.replicate 17 Block.zeros ∧
      t.stream = .none ∧ t.idx = 0 ∧ t.dmem = s.dmem ∧ t.cfg = s.cfg

/-- R350, R351: a reset while a word is in progress, legal or not, abandons it: none of its completion effects happens, every
piece of state has its value of R40, and every byte outside its output region is unchanged. That an illegal word has no output
region, so that all of `DMEM` is unchanged, is DEDUCED (notes/assumptions/11.md); that the host's turns and what it saw stay is
the model's DESIGN CHOICE (notes/assumptions/10.md). -/
def Obligations.ResetAbandonsTheCommandInProgress : Prop :=
  ∀ s : State, s.busy = true →
    ∃ t, hostMove .pulseReset s = .next t ∧
      (∀ i, decode s.cmd = .ok i → ∀ a, ¬ (regionWritten i s.latch).holds a → t.dmem.get a = s.dmem.get a) ∧
      (∀ e, decode s.cmd = .error e → t.dmem = s.dmem) ∧
      (t.busy = false ∧ t.fatal = false ∧ t.keyValid = false ∧ t.err = .ok ∧ t.outLen = 0 ∧ t.intDone = false ∧
        t.intErr = false ∧ t.phase = .idle ∧ t.key = Vector.replicate 32 0 ∧ t.kl = Vector.replicate 17 Block.zeros) ∧
      (t.cmd = 0 ∧ t.ieDone = false ∧ t.ieErr = false ∧ t.desc = ⟨0, 0, 0, 0, 0, 0, 0, 0, 0, 0⟩ ∧
        t.backend = (if s.cfg.hwcap then .hw else .ct64) ∧ t.stream = .none ∧ t.idx = 0 ∧ t.cfg = s.cfg) ∧
      t.readReg 0x04 = (if s.cfg.hwcap then 0x80 else 0x40) ∧
      (∀ o, o ∈ [0x00, 0x08, 0x0C, 0x10, 0x1C, 0x20, 0x24, 0x28, 0x2C, 0x30, 0x34, 0x38, 0x3C, 0x40, 0x44] →
        t.readReg o = 0) ∧
      t.irq = false ∧ t.turns = s.turns ∧ t.hostSaw = s.hostSaw

/-- R99: a command statement of a program writes the command's word to `CMD` and waits for its completion: from a free engine,
its two turns are the acceptance of the word and then exactly `exec` of the command. -/
def Obligations.CommandStatementRunsItsCommand : Prop :=
  ∀ (s : State) (i : Instr) (rest : List Turn), i.wellFormed = true → s.busy = false →
    s.turns = (Statement.command i).turns ++ rest →
    ∃ t, step s = .next t ∧ t.busy = true ∧ t.cmd = encode i ∧ t.latch = s.desc ∧
      step t = exec i { t with turns := rest }

/-! ### The cipher and the mode -/

/-- R123: every entry of the S-box table is the affine map of the field inverse. -/
def Obligations.SboxIsAffineOfInverse : Prop :=
  ∀ a : Byte, ∃ b : Byte, ((a = 0 ∧ b = 0) ∨ gfMul a b = 1) ∧ sbox a = sboxAffine b

/-- R154, R151, R155, R160: `LFSR2` and `LFSR3` undo each other, are linear and commute with `h`; `h` has order 8, so the
tweak lane returns to the tweak after 8 and 16 advances; each round constant is the double of the one before. -/
def Obligations.DerivationFunctionsFollowTheirLaws : Prop :=
  (∀ t : Block, lfsr3 (lfsr2 t) = t ∧ lfsr2 (lfsr3 t) = t ∧ hPerm (lfsr2 t) = lfsr2 (hPerm t) ∧
    hPerm (lfsr3 t) = lfsr3 (hPerm t) ∧ tweakLane t 8 = t ∧ tweakLane t 16 = t) ∧
  (∀ a b : Block, lfsr2 (xorBlock a b) = xorBlock (lfsr2 a) (lfsr2 b) ∧
    lfsr3 (xorBlock a b) = xorBlock (lfsr3 a) (lfsr3 b)) ∧
  (∀ i : Fin 16, rcon[i.val + 1] = mul2 rcon[i.val]) ∧ rcon[0] = 0x2f

/-- R128: for fixed subtweakkeys the encryption is a permutation of the blocks. -/
def Obligations.EncryptStkIsAPermutation : Prop :=
  ∀ stk : RoundKeys, (∀ p q : Block, encryptStk stk p = encryptStk stk q → p = q) ∧
    ∀ c : Block, ∃ p, encryptStk stk p = c

/-- R202, R203: no two roles can produce the same tweak, and within a role two indices give different tweaks. -/
def Obligations.TweakRolesNeverCollide : Prop :=
  (∀ p q : BitVec 4, p ∈ [pfxMsg, pfxAd, pfxMsgFinal, pfxAdFinal] → q ∈ [pfxMsg, pfxAd, pfxMsgFinal, pfxAdFinal] →
    ∀ i j : Nat, i < 2 ^ 64 → j < 2 ^ 64 → tagTweak p i = tagTweak q j → p = q ∧ i = j) ∧
  (∀ (p : BitVec 4) (i : Nat) (n : Nonce), p ∈ [pfxMsg, pfxAd, pfxMsgFinal, pfxAdFinal] → nonceTweak n ≠ tagTweak p i) ∧
  (∀ (tag : Block) (j : Nat) (p : BitVec 4) (i : Nat), p ∈ [pfxMsg, pfxAd, pfxMsgFinal, pfxAdFinal] →
    encTweak tag j ≠ tagTweak p i) ∧
  (∀ (tag : Block) (j : Nat) (n : Nonce), encTweak tag j ≠ nonceTweak n) ∧
  (∀ (tag : Block) (i j : Nat), i < 2 ^ 64 → j < 2 ^ 64 → encTweak tag i = encTweak tag j → i = j)

/-- R208: a stream that is not empty contributes the same whatever `EMPTY_MARKER` is; with `EMPTY_MARKER = 0` an empty one
contributes nothing. -/
def Obligations.EmptyMarkerTouchesOnlyEmptyStreams : Prop :=
  ∀ (kl : RoundKeys) (p q : BitVec 4) (x : List Byte),
    (x ≠ [] → streamAcc true kl p q x = streamAcc false kl p q x) ∧
    streamAcc false kl p q [] = Block.zeros ∧
    streamAcc true kl p q [] = tbcE kl (tagTweak q 0) (padBlock [])

/-- R215: the keystream pass keeps the length and is its own inverse. -/
def Obligations.KeystreamXorUndoesItself : Prop :=
  ∀ (kl : RoundKeys) (n : Nonce) (tag : Block) (x : List Byte),
    keystreamXor kl n tag (keystreamXor kl n tag x) = x ∧
    ∀ k (h : k < x.length), (keystreamXor kl n tag x)[k]? =
      some (x[k] ^^^ (keystreamBlock kl n tag (k / 16)).toList.getD (k % 16) 0)

/-- R218, round trip: opening what was sealed, under the same key lane, nonce and associated data, gives the message. -/
def Obligations.OpenBytesInvertsSealBytes : Prop :=
  ∀ (em : Bool) (kl : RoundKeys) (n : Nonce) (ad msg : List Byte),
    openBytes em kl n ad (sealBytes em kl n ad msg) = some msg

/-- The round trip of the machine (R218, R247, R252, R34): after a `SEAL` that completed, an `OPEN` with the same nonce and
associated data, of the bytes the `SEAL` wrote, into any legal place `d`, verifies and leaves at `d` the bytes that stood
at `SRC_ADDR` before the `SEAL`. -/
def Obligations.OpenRecoversWhatSealWrote : Prop :=
  ∀ (s t : State) (d : Word), s.Inv → exec .aeadSeal s = .next t → t.err = .ok →
    let u : State :=
      { t with latch := { s.latch with srcAddr := s.latch.dstAddr, srcLen := t.outLen, dstAddr := d } }
    u.regionInside u.latch.openRegion → u.outputApart u.latch.openRegion →
    ∃ v, exec .aeadOpen u = .next v ∧ v.err = .ok ∧ v.phase = .verified ∧ v.outLen = s.latch.srcLen ∧
      v.dmem.read d.toNat s.latch.srcLen.toNat = s.dmem.read s.latch.srcAddr.toNat s.latch.srcLen.toNat
end

