-- ==== Sys2Proof/Laws/Bytes.lean ====
section
/-! SUPPORT. The laws of blocks and byte strings, and the lengths of what the passes of the mode give. -/

namespace Sys2Proof.Machine

@[simp] theorem xorBlock_getElem (a b : Block) (k : Nat) (h : k < 16) : (xorBlock a b)[k] = a[k] ^^^ b[k] := by
  simp [xorBlock]

theorem xorBlock_comm (a b : Block) : xorBlock a b = xorBlock b a := by
  apply Vector.ext
  intro k hk
  simp [BitVec.xor_comm]

theorem xorBlock_assoc (a b c : Block) : xorBlock (xorBlock a b) c = xorBlock a (xorBlock b c) := by
  apply Vector.ext
  intro k hk
  simp [BitVec.xor_assoc]

@[simp] theorem Block.zeros_getElem (k : Nat) (h : k < 16) : Block.zeros[k] = 0 := by
  have hz : Block.zeros = Vector.replicate 16 0 := rfl
  simp [hz]

@[simp] theorem xorBlock_zeros (a : Block) : xorBlock a Block.zeros = a := by
  apply Vector.ext
  intro k hk
  simp

@[simp] theorem zeros_xorBlock (a : Block) : xorBlock Block.zeros a = a := by
  rw [xorBlock_comm, xorBlock_zeros]

@[simp] theorem xorBlock_self (a : Block) : xorBlock a a = Block.zeros := by
  apply Vector.ext
  intro k hk
  simp

/-- Adding the same block twice cancels. -/
theorem xorBlock_cancel (a b : Block) : xorBlock (xorBlock a b) b = a := by
  rw [xorBlock_assoc, xorBlock_self, xorBlock_zeros]

@[simp] theorem blockAt_getElem (x : List Byte) (p k : Nat) (h : k < 16) : (blockAt x p)[k] = x.getD (p + k) 0 := by
  simp [blockAt]

@[simp] theorem xorBytes_length (a b : List Byte) : (xorBytes a b).length = min a.length b.length := by
  simp [xorBytes]

@[simp] theorem chunk_length (x : List Byte) (j : Nat) : (chunk x j).length = min 16 (x.length - 16 * j) := by
  simp [chunk]

/-- The chunks of a byte string add up to its length, chunk by chunk. -/
theorem sum_chunk_lengths (len n : Nat) :
    ((List.range n).map fun j => min 16 (len - 16 * j)).sum = min (16 * n) len := by
  induction n with
  | zero => simp
  | succ n ih =>
    rw [List.range_succ, List.map_append, List.sum_append, ih]
    simp
    omega

/-- `len(KeystreamXor(KL, N, tag, X)) = len(X)` (R215). -/
@[simp] theorem keystreamXor_length (kl : RoundKeys) (n : Nonce) (tag : Block) (x : List Byte) :
    (keystreamXor kl n tag x).length = x.length := by
  have h : ((List.range (ceilBlocks x.length)).map fun j => min 16 (x.length - 16 * j)).sum = x.length := by
    rw [sum_chunk_lengths, ceilBlocks]
    omega
  have hm : ∀ j, min (min 16 (x.length - 16 * j)) 16 = min 16 (x.length - 16 * j) := by omega
  simp only [keystreamXor, List.length_flatMap, xorBytes_length, chunk_length, Vector.length_toList, hm, h]

/-- `len(SealBytes) = len(M) + 16` (R216). -/
@[simp] theorem sealBytes_length (em : Bool) (kl : RoundKeys) (n : Nonce) (ad msg : List Byte) :
    (sealBytes em kl n ad msg).length = msg.length + 16 := by
  simp [sealBytes]

/-- What `OpenBytes` can answer: a plaintext 16 bytes shorter than its input, and only when the input is long enough and
the recomputed tag equals the claimed one (R217). -/
theorem openBytes_some (em : Bool) (kl : RoundKeys) (n : Nonce) (ad x m : List Byte)
    (h : openBytes em kl n ad x = some m) :
    16 ≤ x.length ∧ m = openCandidate kl n x ∧ authPass em kl n ad m = openClaim x ∧ m.length = x.length - 16 := by
  unfold openBytes at h
  split at h
  · cases h
  · split at h
    · rename_i hlen htag
      cases h
      refine ⟨by omega, rfl, htag, ?_⟩
      simp [openCandidate, openBody]
    · cases h

end Sys2Proof.Machine
end

