-- ==== Sys2Proof/Laws/Memory.lean ====
section
/-! SUPPORT. The laws of `DMEM`: reading after writing, what a write leaves alone, and that every memory operation keeps
the canonical form. -/

namespace Sys2Proof.Machine

@[simp] theorem Memory.get_nil (a : Nat) : Memory.get [] a = Memory.unlisted := rfl

theorem Memory.get_cons (c : Host.Cell) (t : Memory) (a : Nat) :
    Memory.get (c :: t) a = if c.1 = a then c.2 else Memory.get t a := rfl

/-- A store leaves every other address alone, in any memory. -/
theorem Memory.get_set_other (m : Memory) (a b : Nat) (v : Byte) (h : b ≠ a) : (m.set a v).get b = m.get b := by
  induction m with
  | nil =>
    unfold Memory.set
    split
    · rfl
    · simp [Memory.get_cons, Ne.symm h]
  | cons c t ih =>
    unfold Memory.set
    split
    · split
      · rfl
      · simp [Memory.get_cons, Ne.symm h]
    · split
      · rename_i hac
        split <;> simp [Memory.get_cons, ← hac, Ne.symm h]
      · simp only [Memory.get_cons, ih]

theorem Memory.wf_cons (c : Host.Cell) (t : Memory) :
    Memory.wf (c :: t) = true ↔ c.2 ≠ Memory.unlisted ∧ (∀ d ∈ t, c.1 < d.1) ∧ Memory.wf t = true := by
  simp [Memory.wf, and_assoc]

/-- An address below every listed one reads as an unlisted address. -/
theorem Memory.get_below (m : Memory) (a : Nat) (h : ∀ d ∈ m, a < d.1) : m.get a = Memory.unlisted := by
  induction m with
  | nil => rfl
  | cons c t ih =>
    have hc := h c (by simp)
    simp only [Memory.get_cons]
    rw [if_neg (by omega)]
    exact ih fun d hd => h d (by simp [hd])

/-- In a canonical memory a stored byte reads back. -/
theorem Memory.get_set_same (m : Memory) (a : Nat) (v : Byte) (hm : m.wf = true) : (m.set a v).get a = v := by
  induction m with
  | nil =>
    unfold Memory.set
    split
    · rename_i hv; simp [hv]
    · simp [Memory.get_cons]
  | cons c t ih =>
    obtain ⟨_, hlt, ht⟩ := (Memory.wf_cons c t).1 hm
    unfold Memory.set
    split
    · rename_i hac
      split
      · rename_i hv
        rw [Memory.get_below, hv]
        intro d hd
        rcases List.mem_cons.1 hd with rfl | hd
        · exact hac
        · exact Nat.lt_trans hac (hlt d hd)
      · simp [Memory.get_cons]
    · split
      · rename_i hac
        split
        · rename_i hv
          rw [Memory.get_below, hv]
          intro d hd
          rw [hac]
          exact hlt d hd
        · simp [Memory.get_cons]
      · rename_i hac
        rw [Memory.get_cons, if_neg (Ne.symm hac)]
        exact ih ht

/-- The addresses a store lists are the old ones and the one stored to. -/
theorem Memory.mem_set (m : Memory) (a : Nat) (v : Byte) (d : Host.Cell) (h : d ∈ m.set a v) : d.1 = a ∨ d ∈ m := by
  induction m with
  | nil =>
    unfold Memory.set at h
    split at h
    · cases h
    · simp at h; simp [h]
  | cons c t ih =>
    unfold Memory.set at h
    split at h
    · split at h
      · exact .inr h
      · rcases List.mem_cons.1 h with rfl | h
        · exact .inl rfl
        · exact .inr h
    · split at h
      · split at h
        · exact .inr (List.mem_cons_of_mem _ h)
        · rcases List.mem_cons.1 h with rfl | h
          · exact .inl rfl
          · exact .inr (List.mem_cons_of_mem _ h)
      · rcases List.mem_cons.1 h with rfl | h
        · exact .inr (by simp)
        · exact (ih h).imp_right (List.mem_cons_of_mem _)

/-- A store keeps the canonical form. -/
theorem Memory.wf_set (m : Memory) (a : Nat) (v : Byte) (hm : m.wf = true) : (m.set a v).wf = true := by
  induction m with
  | nil =>
    unfold Memory.set
    split
    · rfl
    · rename_i hv; simpa [Memory.wf] using hv
  | cons c t ih =>
    obtain ⟨hc, hlt, ht⟩ := (Memory.wf_cons c t).1 hm
    unfold Memory.set
    split
    · rename_i hac
      split
      · exact hm
      · rename_i hv
        refine (Memory.wf_cons _ _).2 ⟨hv, ?_, hm⟩
        intro d hd
        rcases List.mem_cons.1 hd with rfl | hd
        · exact hac
        · exact Nat.lt_trans hac (hlt d hd)
    · split
      · rename_i hac
        split
        · exact ht
        · rename_i hv
          exact (Memory.wf_cons _ _).2 ⟨hv, fun d hd => by rw [hac]; exact hlt d hd, ht⟩
      · refine (Memory.wf_cons _ _).2 ⟨hc, ?_, ih ht⟩
        intro d hd
        rcases Memory.mem_set t a v d hd with h | h
        · omega
        · exact hlt d h

theorem Memory.within_iff (size : Nat) (m : Memory) : m.within size = true ↔ ∀ d ∈ m, d.1 < size := by
  simp [Memory.within]

/-- A store inside `[0, size)` keeps every listed address inside. -/
theorem Memory.within_set (size : Nat) (m : Memory) (a : Nat) (v : Byte) (hm : m.within size = true)
    (ha : a < size) : (m.set a v).within size = true := by
  rw [Memory.within_iff] at *
  intro d hd
  rcases Memory.mem_set m a v d hd with h | h
  · omega
  · exact hm d h

@[simp] theorem Memory.write_nil (m : Memory) (a : Nat) : m.write a [] = m := rfl

theorem Memory.write_cons (m : Memory) (a : Nat) (b : Byte) (t : List Byte) :
    m.write a (b :: t) = (m.set a b).write (a + 1) t := rfl

/-- A write keeps the canonical form. -/
theorem Memory.wf_write (x : List Byte) : ∀ (m : Memory) (a : Nat), m.wf = true → (m.write a x).wf = true := by
  induction x with
  | nil => intro m a hm; exact hm
  | cons b t ih => intro m a hm; exact ih _ _ (Memory.wf_set m a b hm)

/-- A write of bytes inside `[0, size)` keeps every listed address inside. -/
theorem Memory.within_write (size : Nat) (x : List Byte) : ∀ (m : Memory) (a : Nat), m.within size = true →
    (x.length = 0 ∨ a + x.length ≤ size) → (m.write a x).within size = true := by
  induction x with
  | nil => intro m a hm _; exact hm
  | cons b t ih =>
    intro m a hm h
    have h' : a + (t.length + 1) ≤ size := by simpa using h
    refine ih _ _ (Memory.within_set size m a b hm (by omega)) (.inr (by omega))

/-- A write leaves every address outside its bytes alone, in any memory (R62, R68). -/
theorem Memory.get_write_outside (x : List Byte) : ∀ (m : Memory) (a b : Nat), ¬ (a ≤ b ∧ b < a + x.length) →
    (m.write a x).get b = m.get b := by
  induction x with
  | nil => intro m a b _; rfl
  | cons v t ih =>
    intro m a b h
    simp only [List.length_cons] at h
    rw [Memory.write_cons, ih _ _ _ (by omega), Memory.get_set_other _ _ _ _ (by omega)]

/-- In a canonical memory the bytes written read back (R62). -/
theorem Memory.get_write_inside (x : List Byte) : ∀ (m : Memory) (a k : Nat) (hk : k < x.length), m.wf = true →
    (m.write a x).get (a + k) = x[k] := by
  induction x with
  | nil => intro m a k hk; cases hk
  | cons v t ih =>
    intro m a k hk hm
    rw [Memory.write_cons]
    cases k with
    | zero =>
      rw [Memory.get_write_outside _ _ _ _ (by omega)]
      simpa using Memory.get_set_same m a v hm
    | succ k =>
      have := ih (m.set a v) (a + 1) k (by simpa using hk) (Memory.wf_set m a v hm)
      rw [show a + (k + 1) = a + 1 + k by omega, this]
      rfl

@[simp] theorem Memory.read_length (m : Memory) (a n : Nat) : (m.read a n).length = n := by simp [Memory.read]

@[simp] theorem Memory.read_getElem (m : Memory) (a n k : Nat) (h : k < (m.read a n).length) :
    (m.read a n)[k] = m.get (a + k) := by simp [Memory.read]

@[simp] theorem Memory.readVec_getElem (m : Memory) (n a k : Nat) (h : k < n) :
    (m.readVec n a)[k] = m.get (a + k) := by simp [Memory.readVec]

/-- Two memories that agree on the bytes of a region give the same byte string there. -/
theorem Memory.read_congr (m m' : Memory) (a n : Nat) (h : ∀ k < n, m.get (a + k) = m'.get (a + k)) :
    m.read a n = m'.read a n := by
  apply List.ext_getElem <;> simp
  exact fun k hk => h k hk

/-- Two memories that agree on the bytes of a region give the same fixed-length string there. -/
theorem Memory.readVec_congr (m m' : Memory) (n a : Nat) (h : ∀ k < n, m.get (a + k) = m'.get (a + k)) :
    m.readVec n a = m'.readVec n a := by
  apply Vector.ext
  intro k hk
  simpa using h k hk

/-- Reading what was just written, in a canonical memory. -/
theorem Memory.read_write_same (m : Memory) (a : Nat) (x : List Byte) (hm : m.wf = true) :
    (m.write a x).read a x.length = x := by
  apply List.ext_getElem
  · simp
  · intro k _ h2
    rw [Memory.read_getElem, Memory.get_write_inside x m a k h2 hm]

/-- Reading a region that a write does not touch. -/
theorem Memory.read_write_apart (m : Memory) (a b n : Nat) (x : List Byte)
    (h : n = 0 ∨ x.length = 0 ∨ b + n ≤ a ∨ a + x.length ≤ b) : (m.write a x).read b n = m.read b n := by
  apply Memory.read_congr
  intro k hk
  exact Memory.get_write_outside x m a (b + k) (by omega)

end Sys2Proof.Machine
end

