-- ==== Sys2Proof/Laws/Exec.lean ====
section
/-! SUPPORT. What a command can do, said once: it takes a fault that one of its checks raises, or all its checks passed and
it has its effect. -/

namespace Sys2Proof.Machine

/-- A fault that a list of checks raises is in the list with its condition true. -/
theorem firstFault_some (cs : List (Bool × ErrCode)) (f : ErrCode) (h : firstFault cs = some f) : (true, f) ∈ cs := by
  induction cs with
  | nil => cases h
  | cons c t ih =>
    unfold firstFault at h
    split at h
    · rename_i hc
      cases h
      exact List.mem_cons.2 (.inl (Prod.ext hc.symm rfl))
    · exact List.mem_cons_of_mem _ (ih h)

/-- No fault is raised exactly when no condition holds. -/
theorem firstFault_none (cs : List (Bool × ErrCode)) : firstFault cs = none ↔ ∀ c ∈ cs, c.1 = false := by
  induction cs with
  | nil => simp [firstFault]
  | cons c t ih =>
    unfold firstFault
    cases hc : c.1 <;> simp [hc, ih]

@[simp] theorem firstFault_nil : firstFault [] = none := rfl

@[simp] theorem firstFault_cons (b : Bool) (f : ErrCode) (t : List (Bool × ErrCode)) :
    firstFault ((b, f) :: t) = if b then some f else firstFault t := rfl

/-- A checked command answers the fault entry of its first fault, or its effect. -/
theorem runChecked_next (s t effect : State) (cs : List (Bool × ErrCode)) (h : s.runChecked cs effect = .next t) :
    (∃ f, firstFault cs = some f ∧ t = s.raise f) ∨ (firstFault cs = none ∧ t = effect) := by
  unfold State.runChecked at h
  split at h
  · rename_i f hf
    cases h
    exact .inl ⟨f, hf, rfl⟩
  · rename_i hf
    cases h
    exact .inr ⟨hf, rfl⟩

/-- The checks of every command, each in the order of its rule. -/
def checksOf (i : Instr) (s : State) : List (Bool × ErrCode) :=
  match i with
  | .nop => [(s.fatal, .fatal)]
  | .aeadNew => newChecks s
  | .aeadSeal => sealChecks s
  | .aeadOpen => openChecks s
  | .clr => [(s.fatal, .fatal)]
  | .selb b => [(s.fatal, .fatal), (decide (b = .hw) && !s.cfg.hwcap, .backend)]
  | .tbcEnc => tbcChecks .tbcEnc s
  | .tbcKsX1 => tbcChecks .tbcKsX1 s
  | .tbcKsX2 => tbcChecks .tbcKsX2 s
  | .tbcKsX4 => tbcChecks .tbcKsX4 s
  | .tbcTagX1 => tbcChecks .tbcTagX1 s
  | .tbcTagX2 => tbcChecks .tbcTagX2 s
  | .tbcTagX4 => tbcChecks .tbcTagX4 s

/-- The effect of every command, once its checks have passed. -/
def CommandEffect (i : Instr) (s t : State) : Prop :=
  match i with
  | .nop => t = s.succeed 0 .idle
  | .aeadNew => t = (s.loadKey s.keyOperand).succeed 0 .idle
  | .aeadSeal => t = (s.store s.sealResult).succeed (s.latch.srcLen.toNat + 16) .done
  | .aeadOpen => ∃ m, s.openResult = some m ∧ t = (s.store m).succeed (s.latch.srcLen.toNat - 16) .verified
  | .clr => t = s.eraseKey.succeed 0 .idle
  | .selb b => t = { s with backend := b }.succeed 0 .idle
  | .tbcEnc => t = (s.store s.encryptedBlock.toList).succeed 16 .idle
  | .tbcKsX1 => t = (s.store (s.keystreamLanes 1)).succeed 16 .idle
  | .tbcKsX2 => t = (s.store (s.keystreamLanes 2)).succeed 32 .idle
  | .tbcKsX4 => t = (s.store (s.keystreamLanes 4)).succeed 64 .idle
  | .tbcTagX1 => t = (s.store (s.accumulatedLanes 1).toList).succeed 16 .idle
  | .tbcTagX2 => t = (s.store (s.accumulatedLanes 2).toList).succeed 16 .idle
  | .tbcTagX4 => t = (s.store (s.accumulatedLanes 4).toList).succeed 16 .idle

/-- No check raises the code 0. -/
theorem checksOf_ne_ok (i : Instr) (s : State) (f : ErrCode) (h : firstFault (checksOf i s) = some f) : f ≠ .ok := by
  have hm := firstFault_some _ _ h
  rintro rfl
  cases i <;> simp [checksOf, newChecks, sealChecks, openChecks, tbcChecks] at hm

/-- EVERYTHING A COMMAND CAN DO: it takes the first fault of its checks; or, only for `OPEN`, it takes `E_AUTH` after
them; or it has its effect. -/
theorem exec_next (i : Instr) (s t : State) (h : exec i s = .next t) :
    (∃ f, firstFault (checksOf i s) = some f ∧ t = s.raise f) ∨
    (i = .aeadOpen ∧ firstFault (checksOf i s) = none ∧ s.openResult = none ∧ t = s.raise .auth) ∨
    (firstFault (checksOf i s) = none ∧ CommandEffect i s t) := by
  cases i with
  | aeadOpen =>
    change execAeadOpen s = _ at h
    unfold execAeadOpen at h
    split at h
    · rename_i f hf
      cases h
      exact .inl ⟨f, hf, rfl⟩
    · rename_i hf
      split at h
      · rename_i m hm
        cases h
        exact .inr (.inr ⟨hf, m, hm, rfl⟩)
      · rename_i hm
        cases h
        exact .inr (.inl ⟨rfl, hf, hm, rfl⟩)
  | _ => exact (runChecked_next _ _ _ _ h).imp_right .inr

/-- What a fault leaves as it was, and what it sets, in one lemma (R310). -/
theorem raise_spec (s : State) (f : ErrCode) :
    s.raise f =
      { s with
        err := f, outLen := 0, phase := f.restingPhase, fatal := s.fatal || f.isFatal, stream := .none, idx := 0,
        intDone := true, intErr := s.intErr || decide (f ≠ .ok), busy := false, seenPhase := 0 } := rfl

/-- The bytes each storing command writes fill its region of R70. -/
@[simp] theorem keystreamLanes_length (s : State) (n : Nat) : (s.keystreamLanes n).length = 16 * n := by
  have h : ((List.range n).map fun _ => 16).sum = 16 * n := by
    induction n with
    | zero => rfl
    | succ n ih => rw [List.range_succ, List.map_append, List.sum_append, ih]; simp; omega
  simpa [State.keystreamLanes, List.length_flatMap] using h

@[simp] theorem sealResult_length (s : State) : s.sealResult.length = s.latch.srcLen.toNat + 16 := by
  simp [State.sealResult, State.srcOperand]

theorem openResult_length (s : State) (m : List Byte) (h : s.openResult = some m) :
    16 ≤ s.latch.srcLen.toNat ∧ m.length = s.latch.srcLen.toNat - 16 := by
  have := openBytes_some _ _ _ _ _ _ h
  simp [State.srcOperand] at this
  exact ⟨this.1, this.2.2.2⟩

/-- What every command computes depends only on the key, the memory, the latch and the parameters (R22, R131). -/
theorem computed_congr (s u : State) (hk : u.kl = s.kl) (hm : u.dmem = s.dmem) (hl : u.latch = s.latch)
    (hc : u.cfg = s.cfg) :
    u.keyOperand = s.keyOperand ∧ u.encryptedBlock = s.encryptedBlock ∧
      (∀ n, u.keystreamLanes n = s.keystreamLanes n) ∧ (∀ n, u.accumulatedLanes n = s.accumulatedLanes n) ∧
      u.sealResult = s.sealResult ∧ u.openResult = s.openResult := by
  simp only [State.keyOperand, State.encryptedBlock, State.keystreamLanes, State.accumulatedLanes, State.sealResult,
    State.openResult, State.laneTweak, State.laneBlock, State.nonceOperand, State.adOperand, State.srcOperand, hk, hm,
    hl, hc, implies_true, and_self]

/-- The bounds check passes exactly when the written region and every read region are in bounds (R70). -/
theorem outOfBounds_false (size : Nat) (i : Instr) (d : Descriptors) :
    outOfBounds size i d = false ↔
      (regionWritten i d).inBounds size = true ∧ ∀ r ∈ regionsRead i d, r.inBounds size = true := by
  simp [outOfBounds]

/-- `InBounds` as a statement about natural numbers (R66). -/
theorem inBounds_iff (size a n : Nat) : inBounds size a n = true ↔ n = 0 ∨ a + n ≤ size := by
  simp [inBounds]

/-- `Overlap` as a statement about natural numbers (R67). -/
theorem overlap_iff (a n b m : Nat) : overlap a n b m = true ↔ n > 0 ∧ m > 0 ∧ a < b + m ∧ b < a + n := by
  simp [overlap, and_assoc]

end Sys2Proof.Machine
end

