-- ==== Sys2Proof/Laws/PerInstr.lean ====
section
/-! SUPPORT. Statements about every command as syntax, one lemma per constructor of Instr. -/

namespace Sys2Proof.Laws

/-- The word the encoder writes for a command is one R97 does not list as illegal, and decodes to that command. -/
def RoundTrip.Statement (i : Instr) : Prop :=
  i.wellFormed = true → CommandWord.wellFormed (encode i) = true ∧ decode (encode i) = .ok i

theorem RoundTrip.nop : RoundTrip.Statement .nop := fun _ => ⟨by decide, rfl⟩
theorem RoundTrip.aeadNew : RoundTrip.Statement .aeadNew := fun _ => ⟨by decide, rfl⟩
theorem RoundTrip.aeadSeal : RoundTrip.Statement .aeadSeal := fun _ => ⟨by decide, rfl⟩
theorem RoundTrip.aeadOpen : RoundTrip.Statement .aeadOpen := fun _ => ⟨by decide, rfl⟩
theorem RoundTrip.clr : RoundTrip.Statement .clr := fun _ => ⟨by decide, rfl⟩
theorem RoundTrip.selb (b : Backend) : RoundTrip.Statement (.selb b) := by
  intro _
  cases b <;> exact ⟨by decide, rfl⟩
theorem RoundTrip.tbcEnc : RoundTrip.Statement .tbcEnc := fun _ => ⟨by decide, rfl⟩
theorem RoundTrip.tbcKsX1 : RoundTrip.Statement .tbcKsX1 := fun _ => ⟨by decide, rfl⟩
theorem RoundTrip.tbcKsX2 : RoundTrip.Statement .tbcKsX2 := fun _ => ⟨by decide, rfl⟩
theorem RoundTrip.tbcKsX4 : RoundTrip.Statement .tbcKsX4 := fun _ => ⟨by decide, rfl⟩
theorem RoundTrip.tbcTagX1 : RoundTrip.Statement .tbcTagX1 := fun _ => ⟨by decide, rfl⟩
theorem RoundTrip.tbcTagX2 : RoundTrip.Statement .tbcTagX2 := fun _ => ⟨by decide, rfl⟩
theorem RoundTrip.tbcTagX4 : RoundTrip.Statement .tbcTagX4 := fun _ => ⟨by decide, rfl⟩

end Sys2Proof.Laws
end

