-- ==== Sys2Proof/Laws/State.lean ====
section
/-! SUPPORT. One lemma per field of State per named update, all true by unfolding the update once. -/

namespace Sys2Proof.Machine

/-! ### `complete` -/

@[simp] theorem State.complete_cfg (s : State) (c : ErrCode) (n : Nat) (p : Phase) : (s.complete c n p).cfg = s.cfg := rfl
@[simp] theorem State.complete_desc (s : State) (c : ErrCode) (n : Nat) (p : Phase) : (s.complete c n p).desc = s.desc := rfl
@[simp] theorem State.complete_latch (s : State) (c : ErrCode) (n : Nat) (p : Phase) : (s.complete c n p).latch = s.latch := rfl
@[simp] theorem State.complete_phase (s : State) (c : ErrCode) (n : Nat) (p : Phase) : (s.complete c n p).phase = p := rfl
@[simp] theorem State.complete_stream (s : State) (c : ErrCode) (n : Nat) (p : Phase) : (s.complete c n p).stream = .none := rfl
@[simp] theorem State.complete_idx (s : State) (c : ErrCode) (n : Nat) (p : Phase) : (s.complete c n p).idx = 0 := rfl
@[simp] theorem State.complete_cmd (s : State) (c : ErrCode) (n : Nat) (p : Phase) : (s.complete c n p).cmd = s.cmd := rfl
@[simp] theorem State.complete_busy (s : State) (c : ErrCode) (n : Nat) (p : Phase) : (s.complete c n p).busy = false := rfl
@[simp] theorem State.complete_keyValid (s : State) (c : ErrCode) (n : Nat) (p : Phase) : (s.complete c n p).keyValid = s.keyValid := rfl
@[simp] theorem State.complete_fatal (s : State) (c : ErrCode) (n : Nat) (p : Phase) : (s.complete c n p).fatal = s.fatal := rfl
@[simp] theorem State.complete_backend (s : State) (c : ErrCode) (n : Nat) (p : Phase) : (s.complete c n p).backend = s.backend := rfl
@[simp] theorem State.complete_err (s : State) (c : ErrCode) (n : Nat) (p : Phase) : (s.complete c n p).err = c := rfl
@[simp] theorem State.complete_ieDone (s : State) (c : ErrCode) (n : Nat) (p : Phase) : (s.complete c n p).ieDone = s.ieDone := rfl
@[simp] theorem State.complete_ieErr (s : State) (c : ErrCode) (n : Nat) (p : Phase) : (s.complete c n p).ieErr = s.ieErr := rfl
@[simp] theorem State.complete_intDone (s : State) (c : ErrCode) (n : Nat) (p : Phase) : (s.complete c n p).intDone = true := rfl
@[simp] theorem State.complete_intErr (s : State) (c : ErrCode) (n : Nat) (p : Phase) : (s.complete c n p).intErr = (s.intErr || decide (c ≠ .ok)) := rfl
@[simp] theorem State.complete_outLen (s : State) (c : ErrCode) (n : Nat) (p : Phase) : (s.complete c n p).outLen = BitVec.ofNat 32 n := rfl
@[simp] theorem State.complete_key (s : State) (c : ErrCode) (n : Nat) (p : Phase) : (s.complete c n p).key = s.key := rfl
@[simp] theorem State.complete_kl (s : State) (c : ErrCode) (n : Nat) (p : Phase) : (s.complete c n p).kl = s.kl := rfl
@[simp] theorem State.complete_dmem (s : State) (c : ErrCode) (n : Nat) (p : Phase) : (s.complete c n p).dmem = s.dmem := rfl
@[simp] theorem State.complete_seenPhase (s : State) (c : ErrCode) (n : Nat) (p : Phase) : (s.complete c n p).seenPhase = 0 := rfl
@[simp] theorem State.complete_turns (s : State) (c : ErrCode) (n : Nat) (p : Phase) : (s.complete c n p).turns = s.turns := rfl
@[simp] theorem State.complete_hostSaw (s : State) (c : ErrCode) (n : Nat) (p : Phase) : (s.complete c n p).hostSaw = s.hostSaw := rfl
@[simp] theorem State.complete_freeCount (s : State) (c : ErrCode) (n : Nat) (p : Phase) : (s.complete c n p).freeCount = s.freeCount := rfl

/-! ### `succeed` -/

@[simp] theorem State.succeed_cfg (s : State) (n : Nat) (p : Phase) : (s.succeed n p).cfg = s.cfg := rfl
@[simp] theorem State.succeed_desc (s : State) (n : Nat) (p : Phase) : (s.succeed n p).desc = s.desc := rfl
@[simp] theorem State.succeed_latch (s : State) (n : Nat) (p : Phase) : (s.succeed n p).latch = s.latch := rfl
@[simp] theorem State.succeed_phase (s : State) (n : Nat) (p : Phase) : (s.succeed n p).phase = p := rfl
@[simp] theorem State.succeed_stream (s : State) (n : Nat) (p : Phase) : (s.succeed n p).stream = .none := rfl
@[simp] theorem State.succeed_idx (s : State) (n : Nat) (p : Phase) : (s.succeed n p).idx = 0 := rfl
@[simp] theorem State.succeed_cmd (s : State) (n : Nat) (p : Phase) : (s.succeed n p).cmd = s.cmd := rfl
@[simp] theorem State.succeed_busy (s : State) (n : Nat) (p : Phase) : (s.succeed n p).busy = false := rfl
@[simp] theorem State.succeed_keyValid (s : State) (n : Nat) (p : Phase) : (s.succeed n p).keyValid = s.keyValid := rfl
@[simp] theorem State.succeed_fatal (s : State) (n : Nat) (p : Phase) : (s.succeed n p).fatal = s.fatal := rfl
@[simp] theorem State.succeed_backend (s : State) (n : Nat) (p : Phase) : (s.succeed n p).backend = s.backend := rfl
@[simp] theorem State.succeed_err (s : State) (n : Nat) (p : Phase) : (s.succeed n p).err = .ok := rfl
@[simp] theorem State.succeed_ieDone (s : State) (n : Nat) (p : Phase) : (s.succeed n p).ieDone = s.ieDone := rfl
@[simp] theorem State.succeed_ieErr (s : State) (n : Nat) (p : Phase) : (s.succeed n p).ieErr = s.ieErr := rfl
@[simp] theorem State.succeed_intDone (s : State) (n : Nat) (p : Phase) : (s.succeed n p).intDone = true := rfl
@[simp] theorem State.succeed_intErr (s : State) (n : Nat) (p : Phase) : (s.succeed n p).intErr = (s.intErr || decide (ErrCode.ok ≠ .ok)) := rfl
@[simp] theorem State.succeed_outLen (s : State) (n : Nat) (p : Phase) : (s.succeed n p).outLen = BitVec.ofNat 32 n := rfl
@[simp] theorem State.succeed_key (s : State) (n : Nat) (p : Phase) : (s.succeed n p).key = s.key := rfl
@[simp] theorem State.succeed_kl (s : State) (n : Nat) (p : Phase) : (s.succeed n p).kl = s.kl := rfl
@[simp] theorem State.succeed_dmem (s : State) (n : Nat) (p : Phase) : (s.succeed n p).dmem = s.dmem := rfl
@[simp] theorem State.succeed_seenPhase (s : State) (n : Nat) (p : Phase) : (s.succeed n p).seenPhase = 0 := rfl
@[simp] theorem State.succeed_turns (s : State) (n : Nat) (p : Phase) : (s.succeed n p).turns = s.turns := rfl
@[simp] theorem State.succeed_hostSaw (s : State) (n : Nat) (p : Phase) : (s.succeed n p).hostSaw = s.hostSaw := rfl
@[simp] theorem State.succeed_freeCount (s : State) (n : Nat) (p : Phase) : (s.succeed n p).freeCount = s.freeCount := rfl

/-! ### `raise` -/

@[simp] theorem State.raise_cfg (s : State) (f : ErrCode) : (s.raise f).cfg = s.cfg := rfl
@[simp] theorem State.raise_desc (s : State) (f : ErrCode) : (s.raise f).desc = s.desc := rfl
@[simp] theorem State.raise_latch (s : State) (f : ErrCode) : (s.raise f).latch = s.latch := rfl
@[simp] theorem State.raise_phase (s : State) (f : ErrCode) : (s.raise f).phase = f.restingPhase := rfl
@[simp] theorem State.raise_stream (s : State) (f : ErrCode) : (s.raise f).stream = .none := rfl
@[simp] theorem State.raise_idx (s : State) (f : ErrCode) : (s.raise f).idx = 0 := rfl
@[simp] theorem State.raise_cmd (s : State) (f : ErrCode) : (s.raise f).cmd = s.cmd := rfl
@[simp] theorem State.raise_busy (s : State) (f : ErrCode) : (s.raise f).busy = false := rfl
@[simp] theorem State.raise_keyValid (s : State) (f : ErrCode) : (s.raise f).keyValid = s.keyValid := rfl
@[simp] theorem State.raise_fatal (s : State) (f : ErrCode) : (s.raise f).fatal = (s.fatal || f.isFatal) := rfl
@[simp] theorem State.raise_backend (s : State) (f : ErrCode) : (s.raise f).backend = s.backend := rfl
@[simp] theorem State.raise_err (s : State) (f : ErrCode) : (s.raise f).err = f := rfl
@[simp] theorem State.raise_ieDone (s : State) (f : ErrCode) : (s.raise f).ieDone = s.ieDone := rfl
@[simp] theorem State.raise_ieErr (s : State) (f : ErrCode) : (s.raise f).ieErr = s.ieErr := rfl
@[simp] theorem State.raise_intDone (s : State) (f : ErrCode) : (s.raise f).intDone = true := rfl
@[simp] theorem State.raise_intErr (s : State) (f : ErrCode) : (s.raise f).intErr = (s.intErr || decide (f ≠ .ok)) := rfl
@[simp] theorem State.raise_outLen (s : State) (f : ErrCode) : (s.raise f).outLen = 0 := rfl
@[simp] theorem State.raise_key (s : State) (f : ErrCode) : (s.raise f).key = s.key := rfl
@[simp] theorem State.raise_kl (s : State) (f : ErrCode) : (s.raise f).kl = s.kl := rfl
@[simp] theorem State.raise_dmem (s : State) (f : ErrCode) : (s.raise f).dmem = s.dmem := rfl
@[simp] theorem State.raise_seenPhase (s : State) (f : ErrCode) : (s.raise f).seenPhase = 0 := rfl
@[simp] theorem State.raise_turns (s : State) (f : ErrCode) : (s.raise f).turns = s.turns := rfl
@[simp] theorem State.raise_hostSaw (s : State) (f : ErrCode) : (s.raise f).hostSaw = s.hostSaw := rfl
@[simp] theorem State.raise_freeCount (s : State) (f : ErrCode) : (s.raise f).freeCount = s.freeCount := rfl

/-! ### `accept` -/

@[simp] theorem State.accept_cfg (s : State) (w : Word) : (s.accept w).cfg = s.cfg := rfl
@[simp] theorem State.accept_desc (s : State) (w : Word) : (s.accept w).desc = s.desc := rfl
@[simp] theorem State.accept_latch (s : State) (w : Word) : (s.accept w).latch = s.desc := rfl
@[simp] theorem State.accept_phase (s : State) (w : Word) : (s.accept w).phase = .idle := rfl
@[simp] theorem State.accept_stream (s : State) (w : Word) : (s.accept w).stream = .none := rfl
@[simp] theorem State.accept_idx (s : State) (w : Word) : (s.accept w).idx = 0 := rfl
@[simp] theorem State.accept_cmd (s : State) (w : Word) : (s.accept w).cmd = w := rfl
@[simp] theorem State.accept_busy (s : State) (w : Word) : (s.accept w).busy = true := rfl
@[simp] theorem State.accept_keyValid (s : State) (w : Word) : (s.accept w).keyValid = s.keyValid := rfl
@[simp] theorem State.accept_fatal (s : State) (w : Word) : (s.accept w).fatal = s.fatal := rfl
@[simp] theorem State.accept_backend (s : State) (w : Word) : (s.accept w).backend = s.backend := rfl
@[simp] theorem State.accept_err (s : State) (w : Word) : (s.accept w).err = s.err := rfl
@[simp] theorem State.accept_ieDone (s : State) (w : Word) : (s.accept w).ieDone = s.ieDone := rfl
@[simp] theorem State.accept_ieErr (s : State) (w : Word) : (s.accept w).ieErr = s.ieErr := rfl
@[simp] theorem State.accept_intDone (s : State) (w : Word) : (s.accept w).intDone = s.intDone := rfl
@[simp] theorem State.accept_intErr (s : State) (w : Word) : (s.accept w).intErr = s.intErr := rfl
@[simp] theorem State.accept_outLen (s : State) (w : Word) : (s.accept w).outLen = s.outLen := rfl
@[simp] theorem State.accept_key (s : State) (w : Word) : (s.accept w).key = s.key := rfl
@[simp] theorem State.accept_kl (s : State) (w : Word) : (s.accept w).kl = s.kl := rfl
@[simp] theorem State.accept_dmem (s : State) (w : Word) : (s.accept w).dmem = s.dmem := rfl
@[simp] theorem State.accept_seenPhase (s : State) (w : Word) : (s.accept w).seenPhase = 0 := rfl
@[simp] theorem State.accept_turns (s : State) (w : Word) : (s.accept w).turns = s.turns := rfl
@[simp] theorem State.accept_hostSaw (s : State) (w : Word) : (s.accept w).hostSaw = s.hostSaw := rfl
@[simp] theorem State.accept_freeCount (s : State) (w : Word) : (s.accept w).freeCount = s.freeCount := rfl

/-! ### `store` -/

@[simp] theorem State.store_cfg (s : State) (x : List Byte) : (s.store x).cfg = s.cfg := rfl
@[simp] theorem State.store_desc (s : State) (x : List Byte) : (s.store x).desc = s.desc := rfl
@[simp] theorem State.store_latch (s : State) (x : List Byte) : (s.store x).latch = s.latch := rfl
@[simp] theorem State.store_phase (s : State) (x : List Byte) : (s.store x).phase = s.phase := rfl
@[simp] theorem State.store_stream (s : State) (x : List Byte) : (s.store x).stream = s.stream := rfl
@[simp] theorem State.store_idx (s : State) (x : List Byte) : (s.store x).idx = s.idx := rfl
@[simp] theorem State.store_cmd (s : State) (x : List Byte) : (s.store x).cmd = s.cmd := rfl
@[simp] theorem State.store_busy (s : State) (x : List Byte) : (s.store x).busy = s.busy := rfl
@[simp] theorem State.store_keyValid (s : State) (x : List Byte) : (s.store x).keyValid = s.keyValid := rfl
@[simp] theorem State.store_fatal (s : State) (x : List Byte) : (s.store x).fatal = s.fatal := rfl
@[simp] theorem State.store_backend (s : State) (x : List Byte) : (s.store x).backend = s.backend := rfl
@[simp] theorem State.store_err (s : State) (x : List Byte) : (s.store x).err = s.err := rfl
@[simp] theorem State.store_ieDone (s : State) (x : List Byte) : (s.store x).ieDone = s.ieDone := rfl
@[simp] theorem State.store_ieErr (s : State) (x : List Byte) : (s.store x).ieErr = s.ieErr := rfl
@[simp] theorem State.store_intDone (s : State) (x : List Byte) : (s.store x).intDone = s.intDone := rfl
@[simp] theorem State.store_intErr (s : State) (x : List Byte) : (s.store x).intErr = s.intErr := rfl
@[simp] theorem State.store_outLen (s : State) (x : List Byte) : (s.store x).outLen = s.outLen := rfl
@[simp] theorem State.store_key (s : State) (x : List Byte) : (s.store x).key = s.key := rfl
@[simp] theorem State.store_kl (s : State) (x : List Byte) : (s.store x).kl = s.kl := rfl
@[simp] theorem State.store_dmem (s : State) (x : List Byte) : (s.store x).dmem = s.dmem.write s.latch.dstAddr.toNat x := rfl
@[simp] theorem State.store_seenPhase (s : State) (x : List Byte) : (s.store x).seenPhase = s.seenPhase := rfl
@[simp] theorem State.store_turns (s : State) (x : List Byte) : (s.store x).turns = s.turns := rfl
@[simp] theorem State.store_hostSaw (s : State) (x : List Byte) : (s.store x).hostSaw = s.hostSaw := rfl
@[simp] theorem State.store_freeCount (s : State) (x : List Byte) : (s.store x).freeCount = s.freeCount := rfl

/-! ### `loadKey` -/

@[simp] theorem State.loadKey_cfg (s : State) (k : Key) : (s.loadKey k).cfg = s.cfg := rfl
@[simp] theorem State.loadKey_desc (s : State) (k : Key) : (s.loadKey k).desc = s.desc := rfl
@[simp] theorem State.loadKey_latch (s : State) (k : Key) : (s.loadKey k).latch = s.latch := rfl
@[simp] theorem State.loadKey_phase (s : State) (k : Key) : (s.loadKey k).phase = s.phase := rfl
@[simp] theorem State.loadKey_stream (s : State) (k : Key) : (s.loadKey k).stream = s.stream := rfl
@[simp] theorem State.loadKey_idx (s : State) (k : Key) : (s.loadKey k).idx = s.idx := rfl
@[simp] theorem State.loadKey_cmd (s : State) (k : Key) : (s.loadKey k).cmd = s.cmd := rfl
@[simp] theorem State.loadKey_busy (s : State) (k : Key) : (s.loadKey k).busy = s.busy := rfl
@[simp] theorem State.loadKey_keyValid (s : State) (k : Key) : (s.loadKey k).keyValid = true := rfl
@[simp] theorem State.loadKey_fatal (s : State) (k : Key) : (s.loadKey k).fatal = s.fatal := rfl
@[simp] theorem State.loadKey_backend (s : State) (k : Key) : (s.loadKey k).backend = s.backend := rfl
@[simp] theorem State.loadKey_err (s : State) (k : Key) : (s.loadKey k).err = s.err := rfl
@[simp] theorem State.loadKey_ieDone (s : State) (k : Key) : (s.loadKey k).ieDone = s.ieDone := rfl
@[simp] theorem State.loadKey_ieErr (s : State) (k : Key) : (s.loadKey k).ieErr = s.ieErr := rfl
@[simp] theorem State.loadKey_intDone (s : State) (k : Key) : (s.loadKey k).intDone = s.intDone := rfl
@[simp] theorem State.loadKey_intErr (s : State) (k : Key) : (s.loadKey k).intErr = s.intErr := rfl
@[simp] theorem State.loadKey_outLen (s : State) (k : Key) : (s.loadKey k).outLen = s.outLen := rfl
@[simp] theorem State.loadKey_key (s : State) (k : Key) : (s.loadKey k).key = k := rfl
@[simp] theorem State.loadKey_kl (s : State) (k : Key) : (s.loadKey k).kl = keyLane k := rfl
@[simp] theorem State.loadKey_dmem (s : State) (k : Key) : (s.loadKey k).dmem = s.dmem := rfl
@[simp] theorem State.loadKey_seenPhase (s : State) (k : Key) : (s.loadKey k).seenPhase = s.seenPhase := rfl
@[simp] theorem State.loadKey_turns (s : State) (k : Key) : (s.loadKey k).turns = s.turns := rfl
@[simp] theorem State.loadKey_hostSaw (s : State) (k : Key) : (s.loadKey k).hostSaw = s.hostSaw := rfl
@[simp] theorem State.loadKey_freeCount (s : State) (k : Key) : (s.loadKey k).freeCount = s.freeCount := rfl

/-! ### `eraseKey` -/

@[simp] theorem State.eraseKey_cfg (s : State) : s.eraseKey.cfg = s.cfg := rfl
@[simp] theorem State.eraseKey_desc (s : State) : s.eraseKey.desc = s.desc := rfl
@[simp] theorem State.eraseKey_latch (s : State) : s.eraseKey.latch = s.latch := rfl
@[simp] theorem State.eraseKey_phase (s : State) : s.eraseKey.phase = s.phase := rfl
@[simp] theorem State.eraseKey_stream (s : State) : s.eraseKey.stream = s.stream := rfl
@[simp] theorem State.eraseKey_idx (s : State) : s.eraseKey.idx = s.idx := rfl
@[simp] theorem State.eraseKey_cmd (s : State) : s.eraseKey.cmd = s.cmd := rfl
@[simp] theorem State.eraseKey_busy (s : State) : s.eraseKey.busy = s.busy := rfl
@[simp] theorem State.eraseKey_keyValid (s : State) : s.eraseKey.keyValid = false := rfl
@[simp] theorem State.eraseKey_fatal (s : State) : s.eraseKey.fatal = s.fatal := rfl
@[simp] theorem State.eraseKey_backend (s : State) : s.eraseKey.backend = s.backend := rfl
@[simp] theorem State.eraseKey_err (s : State) : s.eraseKey.err = s.err := rfl
@[simp] theorem State.eraseKey_ieDone (s : State) : s.eraseKey.ieDone = s.ieDone := rfl
@[simp] theorem State.eraseKey_ieErr (s : State) : s.eraseKey.ieErr = s.ieErr := rfl
@[simp] theorem State.eraseKey_intDone (s : State) : s.eraseKey.intDone = s.intDone := rfl
@[simp] theorem State.eraseKey_intErr (s : State) : s.eraseKey.intErr = s.intErr := rfl
@[simp] theorem State.eraseKey_outLen (s : State) : s.eraseKey.outLen = s.outLen := rfl
@[simp] theorem State.eraseKey_key (s : State) : s.eraseKey.key = Vector.replicate 32 0 := rfl
@[simp] theorem State.eraseKey_kl (s : State) : s.eraseKey.kl = Vector.replicate 17 Block.zeros := rfl
@[simp] theorem State.eraseKey_dmem (s : State) : s.eraseKey.dmem = s.dmem := rfl
@[simp] theorem State.eraseKey_seenPhase (s : State) : s.eraseKey.seenPhase = s.seenPhase := rfl
@[simp] theorem State.eraseKey_turns (s : State) : s.eraseKey.turns = s.turns := rfl
@[simp] theorem State.eraseKey_hostSaw (s : State) : s.eraseKey.hostSaw = s.hostSaw := rfl
@[simp] theorem State.eraseKey_freeCount (s : State) : s.eraseKey.freeCount = s.freeCount := rfl

/-! ### `atPos` -/

@[simp] theorem State.atPos_cfg (s : State) (p : SeqPos) : (s.atPos p).cfg = s.cfg := rfl
@[simp] theorem State.atPos_desc (s : State) (p : SeqPos) : (s.atPos p).desc = s.desc := rfl
@[simp] theorem State.atPos_latch (s : State) (p : SeqPos) : (s.atPos p).latch = s.latch := rfl
@[simp] theorem State.atPos_phase (s : State) (p : SeqPos) : (s.atPos p).phase = p.phase := rfl
@[simp] theorem State.atPos_stream (s : State) (p : SeqPos) : (s.atPos p).stream = p.stream := rfl
@[simp] theorem State.atPos_idx (s : State) (p : SeqPos) : (s.atPos p).idx = BitVec.ofNat 64 p.idx := rfl
@[simp] theorem State.atPos_cmd (s : State) (p : SeqPos) : (s.atPos p).cmd = s.cmd := rfl
@[simp] theorem State.atPos_busy (s : State) (p : SeqPos) : (s.atPos p).busy = s.busy := rfl
@[simp] theorem State.atPos_keyValid (s : State) (p : SeqPos) : (s.atPos p).keyValid = s.keyValid := rfl
@[simp] theorem State.atPos_fatal (s : State) (p : SeqPos) : (s.atPos p).fatal = s.fatal := rfl
@[simp] theorem State.atPos_backend (s : State) (p : SeqPos) : (s.atPos p).backend = s.backend := rfl
@[simp] theorem State.atPos_err (s : State) (p : SeqPos) : (s.atPos p).err = s.err := rfl
@[simp] theorem State.atPos_ieDone (s : State) (p : SeqPos) : (s.atPos p).ieDone = s.ieDone := rfl
@[simp] theorem State.atPos_ieErr (s : State) (p : SeqPos) : (s.atPos p).ieErr = s.ieErr := rfl
@[simp] theorem State.atPos_intDone (s : State) (p : SeqPos) : (s.atPos p).intDone = s.intDone := rfl
@[simp] theorem State.atPos_intErr (s : State) (p : SeqPos) : (s.atPos p).intErr = s.intErr := rfl
@[simp] theorem State.atPos_outLen (s : State) (p : SeqPos) : (s.atPos p).outLen = s.outLen := rfl
@[simp] theorem State.atPos_key (s : State) (p : SeqPos) : (s.atPos p).key = s.key := rfl
@[simp] theorem State.atPos_kl (s : State) (p : SeqPos) : (s.atPos p).kl = s.kl := rfl
@[simp] theorem State.atPos_dmem (s : State) (p : SeqPos) : (s.atPos p).dmem = s.dmem := rfl
@[simp] theorem State.atPos_seenPhase (s : State) (p : SeqPos) : (s.atPos p).seenPhase = s.seenPhase := rfl
@[simp] theorem State.atPos_turns (s : State) (p : SeqPos) : (s.atPos p).turns = s.turns := rfl
@[simp] theorem State.atPos_hostSaw (s : State) (p : SeqPos) : (s.atPos p).hostSaw = s.hostSaw := rfl
@[simp] theorem State.atPos_freeCount (s : State) (p : SeqPos) : (s.atPos p).freeCount = s.freeCount := rfl

/-! ### `observe` -/

@[simp] theorem State.observe_cfg (s : State) (o : HostSaw) : (s.observe o).cfg = s.cfg := rfl
@[simp] theorem State.observe_desc (s : State) (o : HostSaw) : (s.observe o).desc = s.desc := rfl
@[simp] theorem State.observe_latch (s : State) (o : HostSaw) : (s.observe o).latch = s.latch := rfl
@[simp] theorem State.observe_phase (s : State) (o : HostSaw) : (s.observe o).phase = s.phase := rfl
@[simp] theorem State.observe_stream (s : State) (o : HostSaw) : (s.observe o).stream = s.stream := rfl
@[simp] theorem State.observe_idx (s : State) (o : HostSaw) : (s.observe o).idx = s.idx := rfl
@[simp] theorem State.observe_cmd (s : State) (o : HostSaw) : (s.observe o).cmd = s.cmd := rfl
@[simp] theorem State.observe_busy (s : State) (o : HostSaw) : (s.observe o).busy = s.busy := rfl
@[simp] theorem State.observe_keyValid (s : State) (o : HostSaw) : (s.observe o).keyValid = s.keyValid := rfl
@[simp] theorem State.observe_fatal (s : State) (o : HostSaw) : (s.observe o).fatal = s.fatal := rfl
@[simp] theorem State.observe_backend (s : State) (o : HostSaw) : (s.observe o).backend = s.backend := rfl
@[simp] theorem State.observe_err (s : State) (o : HostSaw) : (s.observe o).err = s.err := rfl
@[simp] theorem State.observe_ieDone (s : State) (o : HostSaw) : (s.observe o).ieDone = s.ieDone := rfl
@[simp] theorem State.observe_ieErr (s : State) (o : HostSaw) : (s.observe o).ieErr = s.ieErr := rfl
@[simp] theorem State.observe_intDone (s : State) (o : HostSaw) : (s.observe o).intDone = s.intDone := rfl
@[simp] theorem State.observe_intErr (s : State) (o : HostSaw) : (s.observe o).intErr = s.intErr := rfl
@[simp] theorem State.observe_outLen (s : State) (o : HostSaw) : (s.observe o).outLen = s.outLen := rfl
@[simp] theorem State.observe_key (s : State) (o : HostSaw) : (s.observe o).key = s.key := rfl
@[simp] theorem State.observe_kl (s : State) (o : HostSaw) : (s.observe o).kl = s.kl := rfl
@[simp] theorem State.observe_dmem (s : State) (o : HostSaw) : (s.observe o).dmem = s.dmem := rfl
@[simp] theorem State.observe_seenPhase (s : State) (o : HostSaw) : (s.observe o).seenPhase = s.seenPhase := rfl
@[simp] theorem State.observe_turns (s : State) (o : HostSaw) : (s.observe o).turns = s.turns := rfl
@[simp] theorem State.observe_hostSaw (s : State) (o : HostSaw) : (s.observe o).hostSaw = o :: s.hostSaw := rfl
@[simp] theorem State.observe_freeCount (s : State) (o : HostSaw) : (s.observe o).freeCount = s.freeCount := rfl

/-! ### `writeCtrl` -/

@[simp] theorem State.writeCtrl_cfg (s : State) (w : Word) : (s.writeCtrl w).cfg = s.cfg := rfl
@[simp] theorem State.writeCtrl_desc (s : State) (w : Word) : (s.writeCtrl w).desc = s.desc := rfl
@[simp] theorem State.writeCtrl_latch (s : State) (w : Word) : (s.writeCtrl w).latch = s.latch := rfl
@[simp] theorem State.writeCtrl_phase (s : State) (w : Word) : (s.writeCtrl w).phase = s.phase := rfl
@[simp] theorem State.writeCtrl_stream (s : State) (w : Word) : (s.writeCtrl w).stream = s.stream := rfl
@[simp] theorem State.writeCtrl_idx (s : State) (w : Word) : (s.writeCtrl w).idx = s.idx := rfl
@[simp] theorem State.writeCtrl_cmd (s : State) (w : Word) : (s.writeCtrl w).cmd = s.cmd := rfl
@[simp] theorem State.writeCtrl_busy (s : State) (w : Word) : (s.writeCtrl w).busy = s.busy := rfl
@[simp] theorem State.writeCtrl_keyValid (s : State) (w : Word) : (s.writeCtrl w).keyValid = s.keyValid := rfl
@[simp] theorem State.writeCtrl_fatal (s : State) (w : Word) : (s.writeCtrl w).fatal = s.fatal := rfl
@[simp] theorem State.writeCtrl_backend (s : State) (w : Word) : (s.writeCtrl w).backend = s.backend := rfl
@[simp] theorem State.writeCtrl_err (s : State) (w : Word) : (s.writeCtrl w).err = s.err := rfl
@[simp] theorem State.writeCtrl_ieDone (s : State) (w : Word) : (s.writeCtrl w).ieDone = w.getLsbD 0 := rfl
@[simp] theorem State.writeCtrl_ieErr (s : State) (w : Word) : (s.writeCtrl w).ieErr = w.getLsbD 1 := rfl
@[simp] theorem State.writeCtrl_intDone (s : State) (w : Word) : (s.writeCtrl w).intDone = s.intDone := rfl
@[simp] theorem State.writeCtrl_intErr (s : State) (w : Word) : (s.writeCtrl w).intErr = s.intErr := rfl
@[simp] theorem State.writeCtrl_outLen (s : State) (w : Word) : (s.writeCtrl w).outLen = s.outLen := rfl
@[simp] theorem State.writeCtrl_key (s : State) (w : Word) : (s.writeCtrl w).key = s.key := rfl
@[simp] theorem State.writeCtrl_kl (s : State) (w : Word) : (s.writeCtrl w).kl = s.kl := rfl
@[simp] theorem State.writeCtrl_dmem (s : State) (w : Word) : (s.writeCtrl w).dmem = s.dmem := rfl
@[simp] theorem State.writeCtrl_seenPhase (s : State) (w : Word) : (s.writeCtrl w).seenPhase = s.seenPhase := rfl
@[simp] theorem State.writeCtrl_turns (s : State) (w : Word) : (s.writeCtrl w).turns = s.turns := rfl
@[simp] theorem State.writeCtrl_hostSaw (s : State) (w : Word) : (s.writeCtrl w).hostSaw = s.hostSaw := rfl
@[simp] theorem State.writeCtrl_freeCount (s : State) (w : Word) : (s.writeCtrl w).freeCount = s.freeCount := rfl

/-! ### `clearIntstat` -/

@[simp] theorem State.clearIntstat_cfg (s : State) (w : Word) : (s.clearIntstat w).cfg = s.cfg := rfl
@[simp] theorem State.clearIntstat_desc (s : State) (w : Word) : (s.clearIntstat w).desc = s.desc := rfl
@[simp] theorem State.clearIntstat_latch (s : State) (w : Word) : (s.clearIntstat w).latch = s.latch := rfl
@[simp] theorem State.clearIntstat_phase (s : State) (w : Word) : (s.clearIntstat w).phase = s.phase := rfl
@[simp] theorem State.clearIntstat_stream (s : State) (w : Word) : (s.clearIntstat w).stream = s.stream := rfl
@[simp] theorem State.clearIntstat_idx (s : State) (w : Word) : (s.clearIntstat w).idx = s.idx := rfl
@[simp] theorem State.clearIntstat_cmd (s : State) (w : Word) : (s.clearIntstat w).cmd = s.cmd := rfl
@[simp] theorem State.clearIntstat_busy (s : State) (w : Word) : (s.clearIntstat w).busy = s.busy := rfl
@[simp] theorem State.clearIntstat_keyValid (s : State) (w : Word) : (s.clearIntstat w).keyValid = s.keyValid := rfl
@[simp] theorem State.clearIntstat_fatal (s : State) (w : Word) : (s.clearIntstat w).fatal = s.fatal := rfl
@[simp] theorem State.clearIntstat_backend (s : State) (w : Word) : (s.clearIntstat w).backend = s.backend := rfl
@[simp] theorem State.clearIntstat_err (s : State) (w : Word) : (s.clearIntstat w).err = s.err := rfl
@[simp] theorem State.clearIntstat_ieDone (s : State) (w : Word) : (s.clearIntstat w).ieDone = s.ieDone := rfl
@[simp] theorem State.clearIntstat_ieErr (s : State) (w : Word) : (s.clearIntstat w).ieErr = s.ieErr := rfl
@[simp] theorem State.clearIntstat_intDone (s : State) (w : Word) : (s.clearIntstat w).intDone = (s.intDone && !w.getLsbD 0) := rfl
@[simp] theorem State.clearIntstat_intErr (s : State) (w : Word) : (s.clearIntstat w).intErr = (s.intErr && !w.getLsbD 1) := rfl
@[simp] theorem State.clearIntstat_outLen (s : State) (w : Word) : (s.clearIntstat w).outLen = s.outLen := rfl
@[simp] theorem State.clearIntstat_key (s : State) (w : Word) : (s.clearIntstat w).key = s.key := rfl
@[simp] theorem State.clearIntstat_kl (s : State) (w : Word) : (s.clearIntstat w).kl = s.kl := rfl
@[simp] theorem State.clearIntstat_dmem (s : State) (w : Word) : (s.clearIntstat w).dmem = s.dmem := rfl
@[simp] theorem State.clearIntstat_seenPhase (s : State) (w : Word) : (s.clearIntstat w).seenPhase = s.seenPhase := rfl
@[simp] theorem State.clearIntstat_turns (s : State) (w : Word) : (s.clearIntstat w).turns = s.turns := rfl
@[simp] theorem State.clearIntstat_hostSaw (s : State) (w : Word) : (s.clearIntstat w).hostSaw = s.hostSaw := rfl
@[simp] theorem State.clearIntstat_freeCount (s : State) (w : Word) : (s.clearIntstat w).freeCount = s.freeCount := rfl

end Sys2Proof.Machine
end

