-- ==== Sys2Proof/Laws/Step.lean ====
section
/-! SUPPORT. What one step can do, said once: which turn it is, and what that turn leaves. -/

namespace Sys2Proof.Machine

/-- The command in progress ends in a fault entry of the illegal word, or in what `exec` of the decoded command
answers. -/
theorem runCommand_next (s t : State) (h : s.runCommand = .next t) :
    (∃ i, decode s.cmd = .ok i ∧ exec i s = .next t) ∨
    (∃ e, decode s.cmd = .error e ∧ t = s.raise (if s.fatal then .fatal else .illCmd)) := by
  unfold State.runCommand State.fetch at h
  split at h
  · rename_i i hi
    exact .inl ⟨i, hi, h⟩
  · rename_i e he
    refine .inr ⟨e, he, ?_⟩
    rcases runChecked_next _ _ _ _ h with ⟨f, hf, rfl⟩ | ⟨hf, rfl⟩ <;> cases hs : s.fatal <;> simp_all

/-- EVERYTHING A STEP CAN DO when it answers a next state: the engine waits; the engine runs the command in progress
(on its own turn, by default, or because the host's write to `CMD` is held); the engine works; or the host moves. -/
theorem step_next (s t : State) (h : step s = .next t) :
    (s.busy = false ∧ s.turns = [] ∧ t = s) ∨
    (∃ rest, s.busy = false ∧ s.turns = .engineFinish :: rest ∧ t = { s with turns := rest }) ∨
    (∃ rest, s.turns = .engineWork :: rest ∧ t = { s with turns := rest }.work) ∨
    (∃ m rest, s.turns = .host m :: rest ∧ (s.busy && m.submits) = false ∧
      hostMove m { s with turns := rest } = .next t) ∨
    (∃ left, s.busy = true ∧ { s with turns := left }.runCommand = .next t) := by
  unfold step at h
  split at h
  · rename_i ht
    unfold State.finishTurn at h
    split at h
    · rename_i hb
      refine .inr (.inr (.inr (.inr ⟨[], hb, ?_⟩)))
      rwa [← ht]
    · rename_i hb
      cases h
      exact .inl ⟨by simpa using hb, ht, rfl⟩
  · rename_i rest ht
    unfold State.finishTurn at h
    split at h
    · rename_i hb
      exact .inr (.inr (.inr (.inr ⟨rest, hb, h⟩)))
    · rename_i hb
      cases h
      exact .inr (.inl ⟨rest, by simpa using hb, ht, rfl⟩)
  · rename_i rest ht
    cases h
    exact .inr (.inr (.inl ⟨rest, ht, rfl⟩))
  · rename_i m rest ht
    split at h
    · rename_i hb
      refine .inr (.inr (.inr (.inr ⟨s.turns, ?_, h⟩)))
      simp at hb
      exact hb.1
    · rename_i hb
      exact .inr (.inr (.inr (.inl ⟨m, rest, ht, by simpa using hb, h⟩)))

/-- A host access to `DMEM` answers a next state only while the engine is not busy and inside `[0, DMEM_SIZE)`. -/
theorem dmemMove_next (s t after : State) (a n : Nat) (h : s.dmemMove a n after = .next t) :
    s.busy = false ∧ inBounds s.cfg.dmemSize a n = true ∧ t = after := by
  unfold State.dmemMove at h
  split at h
  · cases h
  · rename_i hb
    split at h
    · rename_i hin
      cases h
      exact ⟨by simpa using hb, hin, rfl⟩
    · cases h

/-- EVERYTHING A HOST MOVE CAN DO when it answers a next state. -/
theorem hostMove_next (m : HostMove) (s t : State) (h : hostMove m s = .next t) :
    (∃ o z, m = .regRead o z ∧ alignedAccess o z = true ∧ t = s.hostRegRead o) ∨
    (∃ o z w, m = .regWrite o z w ∧ alignedAccess o z = true ∧ t = s.writeReg o w) ∨
    (∃ a n, m = .dmemRead a n ∧ s.busy = false ∧ inBounds s.cfg.dmemSize a n = true ∧
      t = s.observe (.bytes (s.dmem.read a n))) ∨
    (∃ a x, m = .dmemWrite a x ∧ s.busy = false ∧ inBounds s.cfg.dmemSize a x.length = true ∧
      t = { s with dmem := s.dmem.write a x }) ∨
    (m = .sampleIrq ∧ t = s.observe (.pin s.irq)) ∨
    (m = .pulseReset ∧ t = s.pulseReset) := by
  cases m with
  | regRead o z =>
    simp only [hostMove] at h
    split at h
    · rename_i ha
      cases h
      exact .inl ⟨o, z, rfl, ha, rfl⟩
    · cases h
  | regWrite o z w =>
    simp only [hostMove] at h
    split at h
    · rename_i ha
      cases h
      exact .inr (.inl ⟨o, z, w, rfl, ha, rfl⟩)
    · cases h
  | dmemRead a n =>
    have h' := dmemMove_next _ _ _ _ _ h
    exact .inr (.inr (.inl ⟨a, n, rfl, h'⟩))
  | dmemWrite a x =>
    have h' := dmemMove_next _ _ _ _ _ h
    exact .inr (.inr (.inr (.inl ⟨a, x, rfl, h'⟩)))
  | sampleIrq =>
    cases h
    exact .inr (.inr (.inr (.inr (.inl ⟨rfl, rfl⟩))))
  | pulseReset =>
    cases h
    exact .inr (.inr (.inr (.inr (.inr ⟨rfl, rfl⟩))))

/-- The engine's turn of a busy state runs the command in progress, in each of the three ways that turn comes: what
`State.runCommand` answers whatever the turns to come are, the engine's turn is. -/
theorem engineTurnIs_of_runCommand (s : State) (answer : State → Host.Outcome State Fault Refusal) (hb : s.busy = true)
    (h : ∀ l, { s with turns := l }.runCommand = answer { s with turns := l }) : s.engineTurnIs answer := by
  refine ⟨fun ht => ?_, fun rest ht => ?_, fun w rest ht => ?_⟩
  · simp only [step, ht, State.finishTurn, hb, if_true]
    exact h s.turns
  · simp only [step, ht, State.finishTurn]
    rw [if_pos (by exact hb)]
    exact h rest
  · simp only [step, ht, hb, HostMove.submits, decide_true, Bool.and_self, if_true]
    exact h s.turns

/-- The fault entry is the end state that the statements write out (R310). -/
theorem raise_eq_afterFault (s : State) (f : ErrCode) (hf : f ≠ .ok) :
    s.raise f = s.afterFault f f.restingPhase f.isFatal := by
  simp [State.raise, State.complete, State.afterFault, hf]

/-- The completion without fault is the end state that the statements write out (R28). -/
theorem succeed_eq_afterSuccess (s : State) (n : Nat) (ph : Phase) : s.succeed n ph = s.afterSuccess n ph := by
  simp [State.succeed, State.complete, State.afterSuccess]

end Sys2Proof.Machine
end

