-- ==== Sys2Proof/Tests/Slice0.lean ====
section
/-! SUPPORT. Tests. Every expected value stands in spec/95_test_vectors.md (the vector is named) or is calculated by hand from
the rule named. The second part shows, for every statement that has hypotheses, a concrete state that meets them. -/

namespace Sys2Proof.Tests

open Sys2Proof Sys2Proof.Machine

/-! ### Encoding: the words of R95, field by field (`OPC`, `RSV`, `IMM` of R91) -/

theorem test_decode_nop : decode (0b00000000#8 ++ 0#16 ++ 0b00000000#8) = .ok .nop := rfl
theorem test_decode_new : decode (0b00000001#8 ++ 0#16 ++ 0b00000000#8) = .ok .aeadNew := rfl
theorem test_decode_seal : decode (0b00000010#8 ++ 0#16 ++ 0b00000000#8) = .ok .aeadSeal := rfl
theorem test_decode_open : decode (0b00000011#8 ++ 0#16 ++ 0b00000000#8) = .ok .aeadOpen := rfl
theorem test_decode_clr : decode (0b00000100#8 ++ 0#16 ++ 0b00000000#8) = .ok .clr := rfl
theorem test_decode_selb : decode (0b00000101#8 ++ 0#16 ++ 0b00000010#8) = .ok (.selb .hw) := rfl
theorem test_decode_tbcenc : decode (0b00010000#8 ++ 0#16 ++ 0b00000000#8) = .ok .tbcEnc := rfl
theorem test_decode_tbcks_x1 : decode (0b00010001#8 ++ 0#16 ++ 0b00000000#8) = .ok .tbcKsX1 := rfl
theorem test_decode_tbcks_x2 : decode (0b00010001#8 ++ 0#16 ++ 0b00000001#8) = .ok .tbcKsX2 := rfl
theorem test_decode_tbcks_x4 : decode (0b00010001#8 ++ 0#16 ++ 0b00000010#8) = .ok .tbcKsX4 := rfl
theorem test_decode_tbctag_x1 : decode (0b00010010#8 ++ 0#16 ++ 0b00000000#8) = .ok .tbcTagX1 := rfl
theorem test_decode_tbctag_x2 : decode (0b00010010#8 ++ 0#16 ++ 0b00000001#8) = .ok .tbcTagX2 := rfl
theorem test_decode_tbctag_x4 : decode (0b00010010#8 ++ 0#16 ++ 0b00000010#8) = .ok .tbcTagX4 := rfl

/-- The four words of `SELB` (R93), as the opcode table numbers their bits. -/
theorem test_table_selb :
    [0x05000000, 0x05000001, 0x05000002, 0x05000003].map (decodeTableWord 32) =
      [some (.selb .ct32), some (.selb .ct64), some (.selb .hw), some (.selb .varTime)] := by decide

theorem test_encode_words :
    [encode .nop, encode .aeadNew, encode .aeadSeal, encode .aeadOpen, encode .clr, encode (.selb .varTime),
      encode .tbcEnc, encode .tbcKsX4, encode .tbcTagX2] =
    [0x00000000, 0x01000000, 0x02000000, 0x03000000, 0x04000000, 0x05000003, 0x10000000, 0x11000002,
      0x12000001] := by decide

/-! ### Well-formedness: for each check an ill-formed term that it refuses (R9, R97; V17, V34) -/

theorem test_config_too_small : Config.wellFormed ⟨63, false, false, 0⟩ = false := by decide
theorem test_config_too_large : Config.wellFormed ⟨2 ^ 32 + 1, false, false, 0⟩ = false := by decide
theorem test_config_base_not_aligned : Config.wellFormed ⟨64, false, false, 2⟩ = false := by decide
theorem test_config_limits : Config.wellFormed ⟨64, true, true, 4⟩ ∧ Config.wellFormed ⟨2 ^ 32, false, false, 0⟩ := by
  decide
theorem test_word_reserved : CommandWord.reservedClear 0x00000100 = false := by decide
theorem test_word_opcode : CommandWord.opcodeKnown 0x06000000 = false := by decide
theorem test_word_format_z : CommandWord.formatZ 0x10000001 = false := by decide
theorem test_word_format_b : CommandWord.formatBL 0x05000004 = false := by decide
theorem test_word_format_l : CommandWord.formatBL 0x12000004 = false := by decide
theorem test_word_lane_code : CommandWord.laneCode 0x11000003 = false := by decide

/-- The words of V17 and V34 that decode to `Illegal`, each refused by its name. -/
theorem test_decode_refuses_by_name :
    decode 0x00000100 = .error .reservedField ∧ decode 0x06000000 = .error .unknownOpcode ∧
    decode 0x13000000 = .error .unknownOpcode ∧ decode 0x10000001 = .error .immediateNotZero ∧
    decode 0x05000004 = .error .immediateTooWide ∧ decode 0x12000004 = .error .immediateTooWide ∧
    decode 0x11000003 = .error .laneCodeThree ∧ decode 0xFFFFFFFF = .error .reservedField :=
  ⟨rfl, rfl, rfl, rfl, rfl, rfl, rfl, rfl⟩

/-! ### The cipher and the mode -/

/-- A block written as a number, its byte 0 the most significant. -/
def blk (n : Nat) : Block := Vector.ofFn fun k => BitVec.ofNat 8 (n >>> (8 * (15 - k.val)))

/-- `B = 00 01 .. 0f` of spec/95_test_vectors.md. -/
def blockB : Block := blk 0x000102030405060708090a0b0c0d0e0f

/-- The bytes of a string as numbers. -/
def nums (x : List Byte) : List Nat := x.map BitVec.toNat

/-- V7: the AES round-1 example. -/
theorem test_round_steps :
    let s := subBytes (blk 0x193de3bea0f4e22b9ac68d2ae9f84808)
    s = blk 0xd42711aee0bf98f1b8b45de51e415230 ∧ shiftRows s = blk 0xd4bf5d30e0b452aeb84111f11e2798e5 ∧
      mixColumns (shiftRows s) = blk 0x046681e5e0cb199a48f8d37a2806264c := by decide +kernel

/-- V11: a round, with its key added last. -/
theorem test_round :
    cipherRound blockB (blk 0xffffffffffffffffffffffffffffffff) = blk 0x9595a3bad392ccae4f26a29ed863dea3 := by
  decide +kernel

/-- V9: `h`, `LFSR2`, `LFSR3` and a round-constant block. -/
theorem test_derivation_pieces :
    hPerm blockB = blk 0x01060b0c050a0f00090e03040d020708 ∧
    [0x01, 0x80, 0x20, 0xa0, 0xff, 0x5a].map lfsr2Byte = [0x02, 0x01, 0x41, 0x40, 0xfe, 0xb4] ∧
    [0x01, 0x80, 0x20, 0xa0, 0xff, 0x5a].map lfsr3Byte = [0x80, 0x40, 0x10, 0x50, 0x7f, 0xad] ∧
    roundConst 16 = blk 0x01020408727272720000000000000000 := by decide +kernel

/-- V19: the tweaks. -/
theorem test_tweaks :
    tagTweak pfxAdFinal 2 = blk 0x60000000000000000000000000000002 ∧
    tagTweak pfxMsg 0x123456789 = blk 0x00000000000000000000000123456789 ∧
    encTweak (blk 0x2b97bd77712f0cde975309959dfe1d7c) (2 ^ 28 - 1) = blk 0xab97bd77712f0cde975309959201e283 ∧
    nonceTweak (Vector.ofFn fun k => BitVec.ofNat 8 (0x20 + k.val)) = blk 0x10202122232425262728292a2b2c2d2e := by
  decide +kernel

/-- V20: padding. -/
theorem test_padding :
    padBlock [] = blk 0x80000000000000000000000000000000 ∧
    padBlock [0xaa] = blk 0xaa800000000000000000000000000000 ∧
    padBlock ((List.range 15).map (BitVec.ofNat 8)) = blk 0x000102030405060708090a0b0c0d0e80 := by decide +kernel

/-! ### Commands -/

/-- A small platform: 256 bytes of `DMEM`. -/
def small : Config := ⟨256, false, false, 0⟩

/-- Descriptor values at the edges of `small`: the key at 0, the nonce at 32, no associated data, 5 bytes of input at 64,
output at 128, tweaks at 192 up to the last byte of `DMEM`. -/
def operands : Descriptors := ⟨0, 32, 32, 15, 48, 0, 64, 5, 128, 192⟩

/-- A free engine that holds the zero key, with the descriptors `operands`. -/
def bench : State :=
  { State.powerOn small with desc := operands, latch := operands, keyValid := true }

/-- What the host reads in `STATUS`, `ERR`, `OUT_LEN` and `INTSTAT` after an outcome. -/
def shown (o : Host.Outcome State Fault Refusal) : List Nat :=
  match o with
  | .next t => [0x04, 0x08, 0x1C, 0x10].map fun o => (t.readReg o).toNat
  | _ => []

/-- The bytes of `DMEM` from an address on, after an outcome. -/
def memory (o : Host.Outcome State Fault Refusal) (a n : Nat) : List Nat :=
  match o with
  | .next t => nums (t.dmem.read a n)
  | _ => []

/-- A step from reset with the words of V34 accepted, by the host's own functions. -/
theorem test_nop : shown (step (State.reset.withFetchWord 32 0x00000000)) = [0x40, 0, 0, 1] := by decide +kernel
/-- P2: `NOP` after a rejected `OPEN` puts the phase back to `IDLE` and leaves `INTSTAT.ERR`. -/
theorem test_nop_after_reject :
    shown (execNop { bench with phase := .rejected, err := .auth, intDone := true, intErr := true }) =
      [0x42, 0, 0, 3] := by decide +kernel
theorem test_selb : shown (step (State.reset.withFetchWord 32 0x05000003)) = [0xC0, 0, 0, 1] := by decide +kernel
theorem test_selb_absent : shown (step (State.reset.withFetchWord 32 0x05000002)) = [0x40, 7, 0, 3] := by
  decide +kernel
theorem test_clr : shown (execClr bench) = [0x40, 0, 0, 1] := by decide +kernel
/-- V35: the fatal state goes before everything, and the key is not erased. -/
theorem test_clr_fatal : shown (execClr { bench with fatal := true }) = [0x46, 8, 0, 3] := by decide +kernel
/-- V34, R305: an illegal word. -/
theorem test_illegal_word : shown (step (State.reset.withFetchWord 32 0x13000000)) = [0x40, 4, 0, 3] := by
  decide +kernel

/-- V8: `KL[1]` and `KL[15]` of the key `10 11 .. 2f`. -/
theorem test_new :
    (match execAeadNew { bench with dmem := (List.range 32).map fun k => (k, BitVec.ofNat 8 (0x10 + k)) } with
      | .next t => decide (t.kl[1] = blk 0xcb46da57c158d049df52ce43d54cc45d ∧
          t.kl[15] = blk 0x9f9f9f9f9f9f9f9f9f9f9f9f9f9f9f9f ∧ t.keyValid = true ∧ t.key[31] = 0x2f)
      | _ => false) = true := by decide +kernel
/-- V30, V35: a wrong key length leaves the old key and hides a key region out of bounds. -/
theorem test_new_key_length :
    shown (execAeadNew { bench with latch := { operands with keyLen := 16, keyAddr := 0xFFFFFFF0 } }) =
      [0x42, 1, 0, 3] := by decide +kernel

/-- V5: the tag of nothing under the zero key. -/
theorem test_seal :
    memory (execAeadSeal { bench with latch := { operands with srcLen := 0 } }) 128 16 =
      nums (blk 0xd2676e60fd8d294a65c75d7a415884ad).toList := by decide +kernel
/-- V31: output one byte into the input is `E_OVERLAP`, and fatal. -/
theorem test_seal_overlap :
    shown (execAeadSeal { bench with latch := { operands with dstAddr := 65 } }) = [0x46, 9, 0, 3] := by decide +kernel

/-- V29, R314: a short input is `E_AUTH` even where a region is out of bounds. -/
theorem test_open_short :
    shown (execAeadOpen { bench with latch := { operands with srcLen := 15, adAddr := 0xFFFF, adLen := 100 } }) =
      [0x7A, 3, 0, 3] := by decide +kernel

/-- The tag of V5 stored at 64, as the input of an `OPEN`. -/
def taggedBench : State :=
  { bench with
    dmem := Memory.write [] 64 (blk 0xd2676e60fd8d294a65c75d7a415884ad).toList
    latch := { operands with srcLen := 16 } }

/-- V5, V32: `OPEN` of a tag alone. -/
theorem test_open_verified : shown (execAeadOpen taggedBench) = [0x72, 0, 0, 1] := by decide +kernel

/-- V11: `E(KeyLane(0), 0, B)`, the block at `SRC_ADDR` and the tweak at `TWK_ADDR`. -/
theorem test_tbcenc :
    memory (execTbcEnc { bench with dmem := Memory.write [] 64 blockB.toList }) 128 16 =
      nums (blk 0x7501e304b6675d9cea004a4db8b671e1).toList := by decide +kernel
/-- V17: `E_NOKEY` comes before `E_BOUNDS`. -/
theorem test_tbcenc_no_key :
    shown (execTbcEnc { bench with keyValid := false, latch := { operands with twkAddr := 0xFFFFFFF0 } }) =
      [0x40, 5, 0, 3] := by decide +kernel
theorem test_tbcks_x1_status : shown (execTbcKsX1 bench) = [0x42, 0, 16, 1] := by decide +kernel
/-- V12, V5: `E` of the zero block under the zero tweak and under `NonceTweak(0)`. -/
theorem test_tbcks_x2 :
    memory (execTbcKsX2 { bench with dmem := [(208, 0x10)] }) 128 33 =
      nums ((blk 0xe151f7dd8eb998120fcb19a342a67712).toList ++ (blk 0xd2676e60fd8d294a65c75d7a415884ad).toList ++ [0]) :=
  by decide +kernel
/-- V17: four tweaks that end at the end of `DMEM`, and one byte further. -/
theorem test_tbcks_x4_bounds :
    shown (execTbcKsX4 bench) = [0x42, 0, 64, 1] ∧
    shown (execTbcKsX4 { bench with latch := { operands with twkAddr := 193 } }) = [0x46, 6, 0, 3] := by
  decide +kernel
/-- V11 and R189 by hand: the accumulator `ff .. ff` plus `E(KeyLane(0), 0, B)`. -/
theorem test_tbctag_x1 :
    memory (execTbcTagX1
      { bench with dmem := Memory.write (Memory.write [] 64 blockB.toList) 128 (List.replicate 16 0xff) }) 128 16 =
      nums (blk 0x8afe1cfb4998a26315ffb5b247498e1e).toList := by decide +kernel
/-- V11, V12 and R189 by hand: `E(KeyLane(0), 0, B) ^ E(KeyLane(0), 0, 0)`. -/
theorem test_tbctag_x2 :
    memory (execTbcTagX2 { bench with dmem := Memory.write [] 64 blockB.toList }) 128 17 =
      nums ((blk 0x945014d938dec58ee5cb53eefa1006f3).toList ++ [0]) := by decide +kernel
theorem test_tbctag_x4_status : shown (execTbcTagX4 bench) = [0x42, 0, 16, 1] := by decide +kernel

/-! ### The host's side and reset -/

/-- R40: the state after reset. -/
theorem test_reset_words :
    [0x00, 0x04, 0x08, 0x0C, 0x10, 0x14, 0x18, 0x1C, 0x20, 0x44, 0x48].map (fun o => (State.reset.readReg o).toNat) =
      [0, 0x40, 0, 0, 0, 0x10100F20, 0xB0, 0, 0, 0, 0] := by decide +kernel
/-- V34: the reset words where the hardware backend is present. -/
theorem test_reset_words_hwcap :
    [0x04, 0x18].map (fun o => ((State.powerOn { small with hwcap := true }).readReg o).toNat) = [0x80, 0xF1] := by
  decide +kernel
theorem test_reset_memory_canonical : State.reset.dmem.wf = true := rfl

/-- V37: `CTRL = 2`, a fault, `INTSTAT <- 2`, `CTRL <- 3`, `INTSTAT <- 1`: the pin each time. -/
theorem test_irq :
    let s1 := { bench with intDone := true, intErr := true }.writeCtrl 2
    let s2 := s1.clearIntstat 2
    let s3 := s2.writeCtrl 3
    [s1.irq, s2.irq, s3.irq, (s3.clearIntstat 1).irq] = [true, false, true, false] ∧
      ((s3.writeCtrl 0xFFFFFFFF).readReg 0x0C).toNat = 3 := by decide +kernel

/-- R100: `SETBUF NONCE, 0x140, 15`; R99: `CLR`; the register names against the offsets of R21. -/
theorem test_statements :
    (Statement.setbuf .nonce 0x140 15).turns =
      [.host (.regWrite 0x28 4 0x140), .host (.regWrite 0x2C 4 15)] ∧
    (Statement.command .clr).turns = [.host (.regWrite 0x00 4 0x04000000), .engineFinish] ∧
    [RegName.outLen, .srcAddr, .dstAddr, .twkAddr].map RegName.offset = [0x1C, 0x38, 0x40, 0x44] := by decide

/-- R100: the second spellings. -/
theorem test_spellings :
    ["TBCKS", "TBCTAG", "SELB HW", "SELB 2", "TBCKS.x3"].map commandOf =
      [some .tbcKsX1, some .tbcTagX1, some (.selb .hw), some (.selb .hw), none] := by decide

/-- R7, R8: the sizes in the types are the constants. -/
theorem test_constants :
    Config.stkCount = 17 ∧ rcon.toList.length = Config.stkCount ∧ Block.zeros.toList.length = Config.stkSize ∧
    paramsWord = 0x10100F20 := by decide

/-! ### Witnesses: the hypotheses of the statements are met -/

/-- The bench with a command word accepted. -/
def running (i : Instr) : State := bench.accept (encode i)

/-- A `SEAL` in progress whose next turn is a second write to `CMD`. -/
def queued : State := { running .aeadSeal with turns := [.host (.regWrite 0x00 4 7)] }

theorem bench_inv : bench.Inv where
  config := by decide
  canonical := by decide
  within := by decide
  keyed := by decide +kernel
  unkeyed := by decide
  atRest := by decide
  atWork := by decide
  seen := by decide
  index := by decide
  backend := by decide

/-- Every command but `OPEN` and `SELB 2` completes on the bench with `ERR = 0`; witness for the statements about every
command that answers a next state. -/
theorem witness_success :
    ∀ i ∈ [Instr.nop, .aeadNew, .aeadSeal, .clr, .selb .varTime, .tbcEnc, .tbcKsX1, .tbcKsX2, .tbcKsX4, .tbcTagX1,
      .tbcTagX2, .tbcTagX4], ∃ t, exec i bench = .next t ∧ t.err = .ok := by
  intro i hi
  simp only [List.mem_cons, List.not_mem_nil, or_false] at hi
  rcases hi with rfl | rfl | rfl | rfl | rfl | rfl | rfl | rfl | rfl | rfl | rfl | rfl <;> exact ⟨_, rfl, rfl⟩

/-- The same for a command that ends in a fault: `FaultsAreClean`, `CommandsRaiseOnlyTheirFaults`. -/
theorem witness_fault : ∃ t, exec (.selb .hw) bench = .next t ∧ t.err = .backend := ⟨_, rfl, rfl⟩

theorem witness_StepRunsTheAcceptedCommand :
    (running .nop).busy = true ∧ decode (running .nop).cmd = .ok .nop ∧ (running .nop).turns = [] ∧
    (Instr.wellFormed .nop = true) ∧
    { running .nop with turns := [Turn.engineFinish] }.turns = .engineFinish :: [] ∧
    queued.busy = true ∧ decode queued.cmd = .ok .aeadSeal ∧ queued.turns = .host (.regWrite 0x00 4 7) :: [] :=
  ⟨rfl, rfl, rfl, rfl, rfl, rfl, rfl, rfl⟩
/-- An illegal word in progress, under each of the three shapes of the engine's turn. -/
theorem witness_IllegalWordTakesIllegalCommandFault :
    let s := fun (l : List Turn) => { bench.accept 0xFFFFFFFF with turns := l }
    (s []).busy = true ∧ (s []).fatal = false ∧ decode (s []).cmd = .error .reservedField ∧ (s []).turns = [] ∧
    (s [.engineFinish]).turns = .engineFinish :: [] ∧
    (s [.host (.regWrite 0x00 4 7)]).turns = .host (.regWrite 0x00 4 7) :: [] := ⟨rfl, rfl, rfl, rfl, rfl, rfl⟩
/-- Both classes of word of R309 under the three shapes of the engine's turn, also for `OnlyResetLeavesTheFatalState`. -/
theorem witness_FatalStateRefusesEveryWord :
    let s := fun (w : Word) (l : List Turn) => { { bench with fatal := true }.accept w with turns := l }
    (s 0x04000000 []).busy = true ∧ (s 0x04000000 []).fatal = true ∧ (s 0x04000000 []).turns = [] ∧
    (s 0xFFFFFFFF [.engineFinish]).busy = true ∧ (s 0xFFFFFFFF [.engineFinish]).fatal = true ∧
    (s 0xFFFFFFFF [.engineFinish]).turns = .engineFinish :: [] ∧
    (s 0x04000000 [.host (.regWrite 0x00 4 7)]).turns = .host (.regWrite 0x00 4 7) :: [] ∧
    ∃ t, step (s 0x04000000 []) = .next t := ⟨rfl, rfl, rfl, rfl, rfl, rfl, rfl, _, rfl⟩
/-- A host move that is no `CMD` write while busy, a `CMD` write while free, a working turn, a free engine with no turn and with
a turn to finish. -/
theorem witness_StepTakesTheNextTurn :
    let busyWith := fun t => { running .aeadSeal with turns := [t] }
    let freeWith := fun t => { bench with turns := [t] }
    ((busyWith (.host (.regRead 0x08 4))).turns = .host (.regRead 0x08 4) :: [] ∧
      (HostMove.regRead 0x08 4).submits = false) ∧
    ((freeWith (.host (.regWrite 0x00 4 7))).turns = .host (.regWrite 0x00 4 7) :: [] ∧
      (freeWith (.host (.regWrite 0x00 4 7))).busy = false) ∧
    (busyWith .engineWork).turns = .engineWork :: [] ∧
    (bench.busy = false ∧ bench.turns = []) ∧
    ((freeWith .engineFinish).busy = false ∧ (freeWith .engineFinish).turns = .engineFinish :: []) :=
  ⟨⟨rfl, rfl⟩, ⟨rfl, rfl⟩, rfl, ⟨rfl, rfl⟩, rfl, rfl⟩
/-- The three states of `SelbSelectsThePresentBackend`; the first and the last also for `NopOnlyCompletes` and
`ClrErasesTheKey`. -/
theorem witness_SelbSelectsThePresentBackend :
    bench.fatal = false ∧ bench.cfg.hwcap = false ∧ (State.powerOn { small with hwcap := true }).fatal = false ∧
    (State.powerOn { small with hwcap := true }).cfg.hwcap = true ∧ { bench with fatal := true }.fatal = true := by
  decide
/-- `NEW` at the last place where the key fits, at the first where it does not, and with lengths beside 32. -/
theorem witness_NewLoadsTheKey :
    let at_ := fun a n => { bench with latch := { operands with keyAddr := a, keyLen := n } }
    ((at_ 224 32).fatal = false ∧ (at_ 224 32).latch.keyLen.toNat = 32 ∧
      (at_ 224 32).latch.keyAddr.toNat + 32 ≤ (at_ 224 32).cfg.dmemSize) ∧
    (at_ 225 32).cfg.dmemSize < (at_ 225 32).latch.keyAddr.toNat + 32 ∧
    (at_ 0 31).latch.keyLen.toNat ≠ 32 ∧ (at_ 0 33).latch.keyLen.toNat ≠ 32 := by decide
/-- `SEAL` into the last bytes of `DMEM`, and in place. -/
theorem witness_SealWritesCiphertextAndTag :
    let at_ := fun a => { bench with latch := { operands with dstAddr := a } }
    (at_ 235).ready ∧ (at_ 235).latch.nonceLen.toNat = 15 ∧ (at_ 235).regionsInside .aeadSeal ∧
    (at_ 235).outputApart (at_ 235).latch.sealRegion ∧
    (at_ 64).ready ∧ (at_ 64).regionsInside .aeadSeal ∧ (at_ 64).outputApart (at_ 64).latch.sealRegion := by decide
theorem witness_SealTakesItsFirstFault :
    let at_ := fun d => { bench with latch := d }
    (at_ { operands with nonceLen := 14 }).ready ∧ (at_ { operands with nonceLen := 14 }).latch.nonceLen.toNat ≠ 15 ∧
    ¬ (at_ { operands with dstAddr := 236 }).regionsInside .aeadSeal ∧
    (at_ { operands with dstAddr := 46 }).regionsInside .aeadSeal ∧
    ¬ (at_ { operands with dstAddr := 46 }).outputApart (at_ { operands with dstAddr := 46 }).latch.sealRegion ∧
    { bench with keyValid := false }.fatal = false ∧ { bench with keyValid := false }.keyValid = false := by decide
/-- The hypotheses of `OpenReleasesOnlyVerifiedPlaintext`, with equal tags on `taggedBench` (V5) and with tags that differ on
the same bench with its input byte 0 changed. -/
theorem witness_OpenReleasesOnlyVerifiedPlaintext :
    taggedBench.ready ∧ taggedBench.latch.nonceLen.toNat = 15 ∧ 16 ≤ taggedBench.latch.srcLen.toNat ∧
    taggedBench.regionsInside .aeadOpen ∧ taggedBench.outputApart taggedBench.latch.openRegion ∧
    authPass false taggedBench.kl (taggedBench.dmem.readVec 15 32) [] [] = taggedBench.dmem.readBlock 64 ∧
    authPass false taggedBench.kl (taggedBench.dmem.readVec 15 32) [] [] ≠ (taggedBench.dmem.set 64 0).readBlock 64 := by
  decide +kernel
/-- Each fault of `OPEN`, at 15 and 16 bytes of input. -/
theorem witness_OpenTakesItsFirstFault :
    let at_ := fun d => { bench with latch := d }
    (at_ { operands with nonceLen := 16 }).ready ∧ (at_ { operands with nonceLen := 16 }).latch.nonceLen.toNat ≠ 15 ∧
    (at_ { operands with srcLen := 15 }).latch.srcLen.toNat < 16 ∧
    (at_ { operands with srcLen := 15 }).latch.nonceLen.toNat = 15 ∧
    ¬ (at_ { operands with srcLen := 16, srcAddr := 241 }).regionsInside .aeadOpen ∧
    (at_ { operands with srcLen := 17, dstAddr := 65 }).regionsInside .aeadOpen ∧
    ¬ (at_ { operands with srcLen := 17, dstAddr := 65 }).outputApart
      (at_ { operands with srcLen := 17, dstAddr := 65 }).latch.openRegion := by decide
/-- Two `OPEN`s that end in `E_AUTH` over different keys and memories. -/
theorem witness_RejectedOpenRevealsNothing :
    ∃ t u, exec .aeadOpen bench = .next t ∧
      exec .aeadOpen { bench with key := Vector.replicate 32 1, kl := keyLane (Vector.replicate 32 1), dmem := [(64, 1)] } =
        .next u ∧ t.err = .auth ∧ u.err = .auth := ⟨_, _, rfl, rfl, rfl, rfl⟩
/-- The seven block-level commands on the bench; the four tweaks of an x4 command end at the last byte of `DMEM`. Also for
the two statements that an x2 or x4 command equals two of half its width. -/
theorem witness_TbcCommands :
    bench.ready ∧ bench.regionsInside .tbcEnc ∧ bench.regionsInside .tbcKsX1 ∧ bench.regionsInside .tbcKsX2 ∧
    bench.regionsInside .tbcKsX4 ∧ bench.regionsInside .tbcTagX1 ∧ bench.regionsInside .tbcTagX2 ∧
    bench.regionsInside .tbcTagX4 ∧
    (laneRegion operands.dstAddr 4).apart (laneRegion operands.twkAddr 4) ∧
    (laneRegion operands.dstAddr 4).apart (laneRegion operands.srcAddr 1) ∧
    (laneRegion operands.dstAddr 1).apart (laneRegion operands.twkAddr 4) ∧
    (laneRegion operands.dstAddr 1).apart (laneRegion operands.srcAddr 4) := by decide
theorem witness_TbcCommandsTakeTheirFirstFault :
    let s := { bench with latch := { operands with twkAddr := 241 } }
    s.ready ∧ ¬ s.regionsInside .tbcEnc ∧ ¬ s.regionsInside .tbcKsX1 ∧ ¬ s.regionsInside .tbcTagX4 ∧
    { bench with keyValid := false }.fatal = false ∧ { bench with keyValid := false }.keyValid = false := by decide
/-- Two memories that differ only outside what `TBCENC` reads. -/
theorem witness_CommandsReadOnlyTheirInputRegions :
    bench.dmem.wf = true ∧ Memory.wf [(255, 7)] = true ∧
    (∀ r ∈ regionsRead .tbcEnc bench.latch, ∀ a, r.holds a → bench.dmem.get a = Memory.get [(255, 7)] a) ∧
    ∃ t u, exec .tbcEnc bench = .next t ∧ exec .tbcEnc { bench with dmem := [(255, 7)] } = .next u ∧ t.err = .ok := by
  refine ⟨rfl, rfl, ?_, _, _, rfl, rfl, rfl⟩
  intro r hr a ha
  simp only [regionsRead, List.mem_cons, List.not_mem_nil, or_false] at hr
  have h : a ≠ 255 := by
    rcases hr with rfl | rfl
    · change 192 ≤ a ∧ a < 208 at ha; omega
    · change 64 ≤ a ∧ a < 80 at ha; omega
  rw [Memory.get_cons, if_neg (Ne.symm h)]
  rfl
/-- A step that changes the key, by `CLR` and by reset. -/
theorem witness_KeyChangesOnlyByNewClrAndReset :
    (∃ t, step (running .clr) = .next t ∧ t.keyValid ≠ (running .clr).keyValid) ∧
    ∃ t, step { bench with turns := [.host .pulseReset] } = .next t ∧ t.keyValid ≠ bench.keyValid :=
  ⟨⟨_, rfl, by decide⟩, _, rfl, by decide⟩
theorem witness_EveryStepKeepsInv : bench.Inv ∧ ∃ t, step bench = .next t := ⟨bench_inv, _, rfl⟩
theorem witness_BusyEngineCompletes :
    let s := { running .aeadOpen with turns := [.engineWork, .engineFinish] }
    s.busy = true ∧ ∀ x ∈ s.turns, x = .engineWork ∨ x = .engineFinish := by decide
/-- A busy engine at every place of the paths of `SEAL` and of `OPEN`. -/
theorem witness_PhaseMovesOnlyAlongThePath :
    (running .aeadSeal).busy = true ∧ (running .aeadSeal).work.phase = .auth ∧
    ((running .aeadSeal).work.work.work).phase = .enc ∧
    ({ running .aeadOpen with latch := { operands with srcLen := 16 } } : State).work.phase = .dec ∧
    ({ running .aeadOpen with latch := { operands with srcLen := 16 } } : State).work.work.phase = .reauth := by
  decide
theorem witness_CommandWrites :
    { bench with turns := [.host (.regWrite 0x00 4 7)] }.busy = false ∧ queued.busy = true ∧
    queued.turns = .host (.regWrite 0x00 4 7) :: [] := ⟨rfl, rfl, rfl⟩
theorem witness_CommandStatementRunsItsCommand :
    let s := { bench with turns := programTurns [.command (.selb .hw), .rd .err] }
    s.busy = false ∧ s.turns = (Statement.command (.selb .hw)).turns ++ [.host (.regRead 0x08 4)] ∧
      Instr.wellFormed (.selb .hw) = true := ⟨rfl, rfl, rfl⟩
theorem witness_DescriptorRegistersReadBack :
    (0x20 : Nat) ∈ [0x20, 0x24, 0x28, 0x2C, 0x30, 0x34, 0x38, 0x3C, 0x40, 0x44] ∧
    (0x44 : Nat) ∈ [0x20, 0x24, 0x28, 0x2C, 0x30, 0x34, 0x38, 0x3C, 0x40, 0x44] ∧ (0x44 : Nat) ≠ 0x20 := by decide
theorem witness_ReadOnlyAndReservedOffsetsIgnoreWrites :
    (0x1C % 4 = 0 ∧ 0x1C ∈ [0x04, 0x08, 0x14, 0x18, 0x1C]) ∧ 0x48 % 4 = 0 ∧ 0x48 ≤ 0x48 := by decide
/-- A free engine with a fault code shown: the hypothesis of `StatusWordHoldsItsFields` about `STATUS`. -/
theorem witness_StatusWordHoldsItsFields : bench.busy = false ∧ { bench with err := .overlap }.busy = false := by decide
/-- A busy engine in each phase of both paths, one place shown before in the second and third of a path. -/
theorem witness_BusyStatusReadShowsThePath :
    let at_ := fun p k => { running .aeadSeal with phase := p, seenPhase := k }
    ∀ x ∈ [at_ .idle 0, at_ .auth 0, at_ .auth 1, at_ .enc 0, at_ .enc 2, at_ .dec 0, at_ .dec 1, at_ .reauth 0,
      at_ .reauth 2], x.busy = true ∧ x.seenPhase ≤ x.phase.pathIndex := by decide
/-- A host access to the last byte of `DMEM`, one byte beyond, an empty one beyond, and one while busy. -/
theorem witness_HostDmemMovesReadBack :
    bench.dmem.wf = true ∧ bench.busy = false ∧ 255 + [(9 : Byte)].length ≤ bench.cfg.dmemSize ∧ [(9 : Byte)].length ≠ 0 ∧
    bench.cfg.dmemSize < 256 + [(9 : Byte)].length ∧ ([] : List Byte).length = 0 ∧ bench.cfg.dmemSize < 257 ∧
    (running .nop).busy = true := by
  decide
theorem witness_UnalignedWindowAccessIsRefused : (2 : Nat) ≠ 4 ∧ 0x22 % 4 ≠ 0 := by decide
/-- A free engine in the fatal state, a `SEAL` in progress with the first byte below its output region, an illegal word in
progress. -/
theorem witness_Resets :
    { bench with fatal := true }.busy = false ∧ (running .aeadSeal).busy = true ∧
    decode (running .aeadSeal).cmd = .ok .aeadSeal ∧
    ¬ (regionWritten .aeadSeal (running .aeadSeal).latch).holds 127 ∧ (bench.accept 0xFFFFFFFF).busy = true ∧
    decode (bench.accept 0xFFFFFFFF).cmd = .error .reservedField := ⟨rfl, rfl, rfl, by decide, rfl, rfl⟩
/-- A read of `ERR` while busy and of `STATUS` while free. -/
theorem witness_RegisterReadsShowTheRegister :
    0x08 % 4 = 0 ∧ (0x08 : Nat) ≠ 0x04 ∧ 0x04 % 4 = 0 ∧ bench.busy = false ∧ (running .nop).busy = true := by decide
/-- Equal tweaks of one role, and equal keystream tweaks, at the largest index. -/
theorem witness_TweakRolesNeverCollide :
    pfxAdFinal ∈ [pfxMsg, pfxAd, pfxMsgFinal, pfxAdFinal] ∧ 2 ^ 64 - 1 < 2 ^ 64 ∧
    tagTweak pfxAdFinal (2 ^ 64 - 1) = tagTweak pfxAdFinal (2 ^ 64 - 1) ∧
    encTweak blockB (2 ^ 64 - 1) = encTweak blockB (2 ^ 64 - 1) := by
  refine ⟨by decide, by decide, rfl, rfl⟩
/-- A stream that is not empty, and its last byte: `EmptyMarkerTouchesOnlyEmptyStreams`, `KeystreamXorUndoesItself`. -/
theorem witness_Streams : [(1 : Byte)] ≠ [] ∧ 0 < [(1 : Byte)].length := by decide
theorem witness_DecodeAndInv : decode (encode .tbcEnc) = .ok .tbcEnc ∧ small.wellFormed = true := ⟨rfl, by decide⟩
/-- A `SEAL` on the bench, then an `OPEN` of its output into the plaintext's old place, and in place. -/
theorem witness_OpenRecoversWhatSealWrote :
    bench.Inv ∧ ∃ t, exec .aeadSeal bench = .next t ∧ t.err = .ok ∧
      ∀ d ∈ [(64 : Word), 128],
        let u : State :=
          { t with latch := { bench.latch with srcAddr := bench.latch.dstAddr, srcLen := t.outLen, dstAddr := d } }
        u.regionInside u.latch.openRegion ∧ u.outputApart u.latch.openRegion :=
  ⟨bench_inv, (bench.store bench.sealResult).succeed 21 .done, rfl, rfl, by
    intro d hd
    simp only [List.mem_cons, List.not_mem_nil, or_false] at hd
    rcases hd with rfl | rfl
    · exact ⟨.inr (show 64 + 5 ≤ 256 by omega), .inr (.inr (.inr (show 32 + 15 ≤ 64 by omega))), .inr (.inl rfl),
        .inl (.inr (.inr (.inl (show 64 + 5 ≤ 128 by omega))))⟩
    · exact ⟨.inr (show 128 + 5 ≤ 256 by omega), .inr (.inr (.inr (show 32 + 15 ≤ 128 by omega))), .inr (.inl rfl),
        .inr rfl⟩⟩

end Sys2Proof.Tests
end

section
/-! PROOFS. The scope of the model (spec/00_scope.md): which turn a step takes, and that the walk of the sequencer is
not an operand of any command. -/

namespace Sys2Proof.Machine

/-! ### One equation per turn of `step` -/

/-- The moves that a busy engine holds are the 32-bit writes to `CMD` (R26). -/
theorem submits_iff (m : HostMove) : m.submits = true ↔ ∃ w, m = .regWrite 0x00 4 w := by
  cases m with
  | regWrite offset size w => simp [HostMove.submits]
  | _ => simp [HostMove.submits]

theorem step_of_host_not_held (s : State) (m : HostMove) (rest : List Turn) (ht : s.turns = .host m :: rest)
    (hm : s.busy = false ∨ m.submits = false) : step s = hostMove m { s with turns := rest } := by
  have held : ¬ (s.busy && m.submits) = true := by simpa [Classical.or_iff_not_imp_left] using hm
  simp only [step, ht, if_neg held]

theorem step_of_engineWork (s : State) (rest : List Turn) (ht : s.turns = .engineWork :: rest) :
    step s = .next { s with turns := rest }.work := by
  simp only [step, ht]

/-- With no command in progress the engine's turn passes (R352). -/
theorem finishTurn_of_free (s : State) (hb : s.busy = false) : s.finishTurn = .next s := by
  simp [State.finishTurn, hb]

theorem step_of_no_turn (s : State) (ht : s.turns = []) : step s = s.finishTurn := by
  simp only [step, ht]

theorem step_of_engineFinish (s : State) (rest : List Turn) (ht : s.turns = .engineFinish :: rest) :
    step s = { s with turns := rest }.finishTurn := by
  simp only [step, ht]

/-- Settles O58, turn by turn. -/
theorem stepTakesTheNextTurn : Obligations.StepTakesTheNextTurn := by
  refine ⟨submits_iff, fun s => ⟨step_of_host_not_held s, step_of_engineWork s, fun hb ht => ?_, fun rest hb ht => ?_⟩⟩
  · exact (step_of_no_turn s ht).trans (finishTurn_of_free s hb)
  · exact (step_of_engineFinish s rest ht).trans (finishTurn_of_free _ hb)

/-! ### Every command is its checks, then one completed state -/

/-- The state a command completes in once its checks have passed; for `OPEN` the comparison of the tags is part of it
(R252). -/
def State.afterChecks (s : State) : Instr → State
  | .nop => s.succeed 0 .idle
  | .aeadNew => (s.loadKey s.keyOperand).succeed 0 .idle
  | .aeadSeal => (s.store s.sealResult).succeed (s.latch.srcLen.toNat + 16) .done
  | .aeadOpen => s.openResult.elim (s.raise .auth) fun m => (s.store m).succeed (s.latch.srcLen.toNat - 16) .verified
  | .clr => s.eraseKey.succeed 0 .idle
  | .selb b => { s with backend := b }.succeed 0 .idle
  | .tbcEnc => (s.store s.encryptedBlock.toList).succeed 16 .idle
  | .tbcKsX1 => (s.store (s.keystreamLanes 1)).succeed 16 .idle
  | .tbcKsX2 => (s.store (s.keystreamLanes 2)).succeed 32 .idle
  | .tbcKsX4 => (s.store (s.keystreamLanes 4)).succeed 64 .idle
  | .tbcTagX1 => (s.store (s.accumulatedLanes 1).toList).succeed 16 .idle
  | .tbcTagX2 => (s.store (s.accumulatedLanes 2).toList).succeed 16 .idle
  | .tbcTagX4 => (s.store (s.accumulatedLanes 4).toList).succeed 16 .idle

/-- Twelve commands are written so; `OPEN` is, after a split on its first fault and on the comparison of the tags. -/
theorem exec_eq_runChecked (i : Instr) (s : State) : exec i s = s.runChecked (checksOf i s) (s.afterChecks i) := by
  cases i with
  | aeadOpen =>
    simp only [exec, execAeadOpen, State.runChecked, checksOf, State.afterChecks]
    cases firstFault (openChecks s) with
    | some f => rfl
    | none => cases s.openResult <;> rfl
  | _ => rfl

/-! ### The walk position is read by no command and overwritten by every completion -/

/-- Every completion sets `(PHASE, STREAM, IDX)` itself (R28). -/
@[simp] theorem State.succeed_atPos (s : State) (p : SeqPos) (n : Nat) (ph : Phase) :
    (s.atPos p).succeed n ph = s.succeed n ph := rfl

/-- So does every fault entry (R310). -/
@[simp] theorem State.raise_atPos (s : State) (p : SeqPos) (f : ErrCode) : (s.atPos p).raise f = s.raise f := rfl

@[simp] theorem State.store_atPos (s : State) (p : SeqPos) (x : List Byte) :
    (s.atPos p).store x = (s.store x).atPos p := rfl

@[simp] theorem State.loadKey_atPos (s : State) (p : SeqPos) (k : Key) :
    (s.atPos p).loadKey k = (s.loadKey k).atPos p := rfl

@[simp] theorem State.eraseKey_atPos (s : State) (p : SeqPos) : (s.atPos p).eraseKey = s.eraseKey.atPos p := rfl

/-- No check reads the position: they read `FATAL`, `KEYVALID`, the latch and the parameters. -/
@[simp] theorem checksOf_atPos (i : Instr) (s : State) (p : SeqPos) : checksOf i (s.atPos p) = checksOf i s := by
  cases i <;> rfl

/-- No operand is read from the position (`computed_congr`), and the completion overwrites it. -/
@[simp] theorem State.afterChecks_atPos (i : Instr) (s : State) (p : SeqPos) :
    (s.atPos p).afterChecks i = s.afterChecks i := by
  obtain ⟨hkey, henc, hks, htag, hseal, hopen⟩ := computed_congr s (s.atPos p) rfl rfl rfl rfl
  cases i with
  | selb b => rfl
  | _ => simp [State.afterChecks, hkey, henc, hks, htag, hseal, hopen]

theorem runChecked_atPos (s : State) (p : SeqPos) (cs : List (Bool × ErrCode)) (t : State) :
    (s.atPos p).runChecked cs t = s.runChecked cs t := by
  simp only [State.runChecked, State.raise_atPos]

theorem exec_atPos (i : Instr) (s : State) (p : SeqPos) : exec i (s.atPos p) = exec i s := by
  rw [exec_eq_runChecked, exec_eq_runChecked, checksOf_atPos, State.afterChecks_atPos, runChecked_atPos]

/-- Settles O31: a turn of work moves the position only, and `exec` answers the same at every position. -/
theorem sequencerProgressIsNotObservable : Obligations.SequencerProgressIsNotObservable := by
  intro i s
  unfold State.work
  split
  · exact exec_atPos i s s.nextPos
  · rfl

end Sys2Proof.Machine
end

section
/-! PROOFS. The state of the engine (spec/10_state.md): what a command, a completion and a turn change and leave, the
register window, reset, and the invariant of every step. -/

namespace Sys2Proof.Machine

/-! ### Everything a command can leave -/

/-- What a command has written of its own when its checks have passed and its completion is still to come: one case per
kind of command. -/
inductive OwnWrites (s : State) : Instr → State → Prop where
  /-- `NOP` writes nothing (R271). -/
  | nothing : OwnWrites s .nop s
  /-- `NEW` loads a key (R243). -/
  | newKey (k : Key) : OwnWrites s .aeadNew (s.loadKey k)
  /-- `CLR` erases the key (R273). -/
  | noKey : OwnWrites s .clr s.eraseKey
  /-- `SELB` selects a backend (R276). -/
  | select (b : Backend) : OwnWrites s (.selb b) { s with backend := b }
  /-- The other commands fill their output region at `DST_ADDR` (R70). -/
  | bytes {i : Instr} (x : List Byte) (hkey : keepsKey i = true)
      (haddr : (regionWritten i s.latch).addr = s.latch.dstAddr.toNat)
      (hlen : x.length = (regionWritten i s.latch).len) : OwnWrites s i (s.store x)

/-- The effect of a command is its own writes, then a completion whose `OUT_LEN` is the length of its output region. -/
theorem CommandEffect.ownWrites {i : Instr} {s t : State} (h : CommandEffect i s t) :
    ∃ u ph, OwnWrites s i u ∧ ph.resting = true ∧ t = u.succeed (regionWritten i s.latch).len ph := by
  cases i with
  | nop => exact ⟨_, .idle, .nothing, rfl, h⟩
  | aeadNew => exact ⟨_, .idle, .newKey _, rfl, h⟩
  | clr => exact ⟨_, .idle, .noKey, rfl, h⟩
  | selb b => exact ⟨_, .idle, .select b, rfl, h⟩
  | aeadSeal => exact ⟨_, .done, .bytes _ rfl rfl (sealResult_length s), rfl, h⟩
  | aeadOpen =>
    obtain ⟨m, hm, ht⟩ := h
    exact ⟨_, .verified, .bytes m rfl rfl (openResult_length s m hm).2, rfl, ht⟩
  | tbcEnc => exact ⟨_, .idle, .bytes _ rfl rfl (Vector.length_toList ..), rfl, h⟩
  | tbcKsX1 => exact ⟨_, .idle, .bytes _ rfl rfl (keystreamLanes_length s 1), rfl, h⟩
  | tbcKsX2 => exact ⟨_, .idle, .bytes _ rfl rfl (keystreamLanes_length s 2), rfl, h⟩
  | tbcKsX4 => exact ⟨_, .idle, .bytes _ rfl rfl (keystreamLanes_length s 4), rfl, h⟩
  | tbcTagX1 => exact ⟨_, .idle, .bytes _ rfl rfl (Vector.length_toList ..), rfl, h⟩
  | tbcTagX2 => exact ⟨_, .idle, .bytes _ rfl rfl (Vector.length_toList ..), rfl, h⟩
  | tbcTagX4 => exact ⟨_, .idle, .bytes _ rfl rfl (Vector.length_toList ..), rfl, h⟩

/-- A command ends in a fault entry, or its checks passed and it has its own writes and completes. -/
theorem exec_cases {i : Instr} {s t : State} (h : exec i s = .next t) :
    (∃ f, f ≠ .ok ∧ t = s.raise f) ∨
    (firstFault (checksOf i s) = none ∧
      ∃ u ph, OwnWrites s i u ∧ ph.resting = true ∧ t = u.succeed (regionWritten i s.latch).len ph) := by
  rcases exec_next i s t h with ⟨f, hf, ht⟩ | ⟨-, -, -, ht⟩ | ⟨hnone, heff⟩
  · exact .inl ⟨f, checksOf_ne_ok i s f hf, ht⟩
  · exact .inl ⟨.auth, by decide, ht⟩
  · exact .inr ⟨hnone, heff.ownWrites⟩

theorem exec_answers (i : Instr) (s : State) : ∃ t, exec i s = .next t := by
  rw [exec_eq_runChecked]
  unfold State.runChecked
  cases firstFault (checksOf i s) with
  | some f => exact ⟨_, rfl⟩
  | none => exact ⟨_, rfl⟩

/-- Where no fault is raised, the condition of each check is false. -/
theorem condition_of_checks_pass {cs : List (Bool × ErrCode)} {b : Bool} {f : ErrCode} (h : firstFault cs = none)
    (hmem : (b, f) ∈ cs) : b = false := (firstFault_none cs).1 h (b, f) hmem

/-- A command whose checks all pass runs in a state that is not fatal: that is the first check of every command (R314). -/
theorem fatal_of_checks_pass {i : Instr} {s : State} (h : firstFault (checksOf i s) = none) : s.fatal = false := by
  refine condition_of_checks_pass (f := .fatal) h ?_
  cases i <;> exact List.mem_cons_self

theorem ErrCode.restingPhase_resting (f : ErrCode) : f.restingPhase.resting = true := by
  cases f <;> rfl

/-- A command's own writes reach none of the control and status registers but `KEYVALID` and `BACKEND`, nor the
sequencer, nor the host's side. -/
theorem OwnWrites.frame {s u : State} {i : Instr} (h : OwnWrites s i u) :
    u = { s with key := u.key, kl := u.kl, keyValid := u.keyValid, backend := u.backend, dmem := u.dmem } := by
  cases h <;> rfl

theorem OwnWrites.intErr {s u : State} {i : Instr} (h : OwnWrites s i u) : u.intErr = s.intErr := by
  rw [h.frame]

/-- Settles O22: every command answers, by `exec_cases` with a completion. -/
theorem everyCommandCompletes : Obligations.EveryCommandCompletes := by
  intro i s
  obtain ⟨t, h⟩ := exec_answers i s
  refine ⟨t, h, ?_⟩
  rcases exec_cases h with ⟨f, hf, rfl⟩ | ⟨-, u, ph, hu, hph, rfl⟩
  · simp [ErrCode.restingPhase_resting]
  · simp [hu.intErr, hph]

/-- Only the two fatal faults set `FATAL` (R312). -/
theorem fatal_or_isFatal (b : Bool) (f : ErrCode) : (b || f.isFatal) = b ∨ f = .bounds ∨ f = .overlap := by
  cases f <;> simp [ErrCode.isFatal]

/-- Settles O23: a fault entry writes none of these; of a command's own writes only `SELB` changes `BACKEND`, and the
commands that do not keep the key are `NEW` and `CLR`. -/
theorem noCommandWritesOperandRegisters : Obligations.NoCommandWritesOperandRegisters := by
  intro i s t h
  rcases exec_cases h with ⟨f, hf, rfl⟩ | ⟨-, u, ph, hu, hph, rfl⟩
  · simpa using fatal_or_isFatal s.fatal f
  · cases hu with
    | nothing => simp
    | newKey k => simp [keepsKey]
    | noKey => simp [keepsKey]
    | select b => simp
    | bytes x => simp

/-! ### The command in progress -/

theorem runCommand_of_decode {s : State} {i : Instr} (h : decode s.cmd = .ok i) : s.runCommand = exec i s := by
  simp only [State.runCommand, State.fetch, h]

/-- Settles O4: the engine's turn is the command in progress, and that is `exec` of the decoded word. -/
theorem stepRunsTheAcceptedCommand : Obligations.StepRunsTheAcceptedCommand := by
  intro s i hb _ hd
  exact engineTurnIs_of_runCommand s (exec i) hb fun l => runCommand_of_decode hd

/-- An illegal word answers too: it takes a fault (R305, R309). -/
theorem runCommand_answers (s : State) : ∃ t, s.runCommand = .next t := by
  unfold State.runCommand
  split
  · exact exec_answers _ s
  · unfold illegalWord State.runChecked
    cases firstFault [(s.fatal, ErrCode.fatal)] with
    | some f => exact ⟨_, rfl⟩
    | none => exact ⟨_, rfl⟩

/-- What the completion of the word in progress, legal or not, leaves alone of what the host has set up (R22, R28, R39). -/
theorem runCommand_frame {s t : State} (h : s.runCommand = .next t) :
    t.busy = false ∧ t.turns = s.turns ∧ t.cmd = s.cmd ∧ t.desc = s.desc ∧ t.cfg = s.cfg := by
  rcases runCommand_next s t h with ⟨i, -, hexec⟩ | ⟨e, -, rfl⟩
  · obtain ⟨hdesc, -, hcmd, -, -, hcfg, hturns, -⟩ := noCommandWritesOperandRegisters i s t hexec
    obtain ⟨t', hexec', hbusy, -⟩ := everyCommandCompletes i s
    cases hexec.symm.trans hexec'
    exact ⟨hbusy, hturns, hcmd, hdesc, hcfg⟩
  · exact ⟨rfl, rfl, rfl, rfl, rfl⟩

/-- The word in progress changes the per-key state only if it is `NEW` or `CLR` and the state is not fatal (R42). -/
theorem runCommand_keeps_key {s t : State} (h : s.runCommand = .next t) :
    (t.key = s.key ∧ t.kl = s.kl ∧ t.keyValid = s.keyValid) ∨
    (s.fatal = false ∧ (decode s.cmd = .ok .aeadNew ∨ decode s.cmd = .ok .clr)) := by
  rcases runCommand_next s t h with ⟨i, hi, hexec⟩ | ⟨e, -, rfl⟩
  · rcases exec_cases hexec with ⟨f, -, rfl⟩ | ⟨hpass, u, ph, hu, -, rfl⟩
    · exact .inl ⟨rfl, rfl, rfl⟩
    · have hfatal := fatal_of_checks_pass hpass
      cases hu with
      | newKey k => exact .inr ⟨hfatal, .inl hi⟩
      | noKey => exact .inr ⟨hfatal, .inr hi⟩
      | nothing | select b | bytes x => exact .inl ⟨rfl, rfl, rfl⟩
  · exact .inl ⟨rfl, rfl, rfl⟩

/-! ### What a host move leaves -/

/-- EVERYTHING A REGISTER WRITE CAN DO: it submits a command, writes `CTRL`, clears in `INTSTAT`, or reaches nothing but the
descriptor registers. -/
theorem writeReg_cases (s : State) (o : Nat) (w : Word) :
    s.writeReg o w = s.accept w ∨ s.writeReg o w = s.writeCtrl w ∨ s.writeReg o w = s.clearIntstat w ∨
    s.writeReg o w = { s with desc := s.desc.put o w } := by
  unfold State.writeReg
  split <;> simp

/-- A register read leaves everything but what the host saw, and while busy the model's own record of `STATUS` reads (R73). -/
theorem hostRegRead_frame (s : State) (o : Nat) :
    s.hostRegRead o =
      { s with
        seenPhase := (s.hostRegRead o).seenPhase, freeCount := (s.hostRegRead o).freeCount,
        hostSaw := (s.hostRegRead o).hostSaw } := by
  unfold State.hostRegRead State.afterStatusRead
  split
  · split <;> rfl
  · rfl

/-- No host move but the reset pulse reaches the per-key state. -/
theorem hostMove_keeps_key {m : HostMove} {s t : State} (h : hostMove m s = .next t) :
    m = .pulseReset ∨ (t.key = s.key ∧ t.kl = s.kl ∧ t.keyValid = s.keyValid) := by
  rcases hostMove_next m s t h with ⟨o, z, -, -, rfl⟩ | ⟨o, z, w, -, -, rfl⟩ | ⟨a, n, -, -, -, rfl⟩ |
    ⟨a, x, -, -, -, rfl⟩ | ⟨-, rfl⟩ | ⟨hm, -⟩
  · rw [hostRegRead_frame s o]
    exact .inr ⟨rfl, rfl, rfl⟩
  · rcases writeReg_cases s o w with e | e | e | e <;> rw [e] <;> exact .inr ⟨rfl, rfl, rfl⟩
  · exact .inr ⟨rfl, rfl, rfl⟩
  · exact .inr ⟨rfl, rfl, rfl⟩
  · exact .inr ⟨rfl, rfl, rfl⟩
  · exact .inl hm

theorem hostMove_cfg {m : HostMove} {s t : State} (h : hostMove m s = .next t) : t.cfg = s.cfg := by
  rcases hostMove_next m s t h with ⟨o, z, -, -, rfl⟩ | ⟨o, z, w, -, -, rfl⟩ | ⟨a, n, -, -, -, rfl⟩ |
    ⟨a, x, -, -, -, rfl⟩ | ⟨-, rfl⟩ | ⟨-, rfl⟩
  · rw [hostRegRead_frame s o]
  · rcases writeReg_cases s o w with e | e | e | e <;> rw [e] <;> rfl
  · rfl
  · rfl
  · rfl
  · rfl

/-- A turn of work moves the position only (R257). -/
theorem work_frame (s : State) :
    s.work = { s with phase := s.work.phase, stream := s.work.stream, idx := s.work.idx } := by
  unfold State.work
  split <;> rfl

/-- Settles O32: over what a step can do, a turn of work leaves the key, and a host move or the command in progress
changes it only as `hostMove_keeps_key` and `runCommand_keeps_key` say. -/
theorem keyChangesOnlyByNewClrAndReset : Obligations.KeyChangesOnlyByNewClrAndReset := by
  intro s t h hchanged
  rcases step_next s t h with ⟨-, -, rfl⟩ | ⟨rest, -, -, rfl⟩ | ⟨rest, -, rfl⟩ | ⟨m, rest, hturn, -, hm⟩ |
    ⟨left, hb, hrun⟩
  · exact absurd ⟨rfl, rfl, rfl⟩ hchanged
  · exact absurd ⟨rfl, rfl, rfl⟩ hchanged
  · rw [work_frame] at hchanged
    exact absurd ⟨rfl, rfl, rfl⟩ hchanged
  · rcases hostMove_keeps_key hm with rfl | hkept
    · exact .inl ⟨rest, hturn⟩
    · exact absurd hkept hchanged
  · rcases runCommand_keeps_key hrun with hkept | hcause
    · exact absurd hkept hchanged
    · exact .inr ⟨hb, hcause⟩

end Sys2Proof.Machine
end

section
/-! PROOFS. The walk of the sequencer (R24, R25, R257), and the invariant of the machine with every step. -/

namespace Sys2Proof.Machine

/-! ### The walk of the sequencer -/

theorem nextInRun_phase {ph : Phase} {st : Stream} {k n : Nat} {after : SeqPos} (h : after.phase = ph) :
    (nextInRun ph st k n after).phase = ph := by
  unfold nextInRun
  split
  · rfl
  · exact h

theorem finPos_phase (ph : Phase) : (finPos ph).phase = ph := rfl

theorem afterAd_phase (ph : Phase) (nMsg : Nat) : (afterAd ph nMsg).phase = ph := by
  unfold afterAd enterRun
  split <;> rfl

theorem authStart_phase (ph : Phase) (nAd nMsg : Nat) : (authStart ph nAd nMsg).phase = ph := by
  unfold authStart enterRun
  split
  · exact afterAd_phase ph nMsg
  · rfl

/-- The moves of the phase while `SEAL` runs (R25, R257). -/
def sealMoves : List (Phase × Phase) := [(.idle, .auth), (.auth, .enc)]

/-- The moves of the phase while `OPEN` runs (R25, R257). -/
def openMoves : List (Phase × Phase) := [(.idle, .dec), (.dec, .reauth)]

theorem sealNext_phase (nAd nMsg nKs : Nat) (p : SeqPos) :
    (sealNext nAd nMsg nKs p).phase = p.phase ∨ (p.phase, (sealNext nAd nMsg nKs p).phase) ∈ sealMoves := by
  unfold sealNext
  split
  case h_1 h => exact .inr (by simp [h, sealMoves, authStart_phase])
  case h_2 h _ => exact .inl ((nextInRun_phase (afterAd_phase _ _)).trans h.symm)
  case h_3 h _ => exact .inl ((nextInRun_phase (finPos_phase _)).trans h.symm)
  case h_4 h _ => exact .inr (by simp [h, sealMoves])
  case h_5 h _ => exact .inl ((nextInRun_phase h).trans h.symm)
  case h_6 => exact .inl rfl

/-- After `DEC` the walk stays in its run of blocks or goes on to `REAUTH`. -/
theorem nextInRun_phase_or {ph : Phase} {st : Stream} {k n : Nat} {after : SeqPos} :
    (nextInRun ph st k n after).phase = ph ∨ (nextInRun ph st k n after).phase = after.phase := by
  unfold nextInRun
  split
  · exact .inl rfl
  · exact .inr rfl

theorem openNext_phase (nAd nMsg nKs : Nat) (p : SeqPos) :
    (openNext nAd nMsg nKs p).phase = p.phase ∨ (p.phase, (openNext nAd nMsg nKs p).phase) ∈ openMoves := by
  unfold openNext
  split
  case h_1 h => exact .inr (by simp [h, openMoves])
  case h_2 h _ =>
    rw [h]
    refine nextInRun_phase_or.imp_right fun hnext => ?_
    rw [hnext, authStart_phase]
    simp [openMoves]
  case h_3 h _ => exact .inl ((nextInRun_phase (afterAd_phase _ _)).trans h.symm)
  case h_4 h _ => exact .inl ((nextInRun_phase (finPos_phase _)).trans h.symm)
  case h_5 => exact .inl rfl

/-- A turn of work keeps the phase, or `SEAL` or `OPEN` is in progress with its checks passed and makes one of its moves. -/
theorem nextPos_phase (s : State) :
    s.nextPos.phase = s.phase ∨
    (decode s.cmd = .ok .aeadSeal ∧ firstFault (sealChecks s) = none ∧ (s.phase, s.nextPos.phase) ∈ sealMoves) ∨
    (decode s.cmd = .ok .aeadOpen ∧ firstFault (openChecks s) = none ∧ (s.phase, s.nextPos.phase) ∈ openMoves) := by
  unfold State.nextPos
  split
  · rename_i hd
    split
    · exact .inl rfl
    · rename_i hpass
      exact (sealNext_phase _ _ _ s.seqPos).imp_right fun hmove => .inl ⟨hd, by simpa using hpass, hmove⟩
  · rename_i hd
    split
    · exact .inl rfl
    · rename_i hpass
      exact (openNext_phase _ _ _ s.seqPos).imp_right fun hmove => .inr ⟨hd, by simpa using hpass, hmove⟩
  · exact .inl rfl

/-- Every move leads to a working phase, further along its path. -/
theorem moves_forward {p q : Phase} (h : (p, q) ∈ sealMoves ∨ (p, q) ∈ openMoves) :
    q.working = true ∧ p.pathIndex ≤ q.pathIndex := by
  simp only [sealMoves, openMoves, List.mem_cons, Prod.mk.injEq, List.not_mem_nil, or_false] at h
  rcases h with (⟨rfl, rfl⟩ | ⟨rfl, rfl⟩) | (⟨rfl, rfl⟩ | ⟨rfl, rfl⟩) <;> decide

theorem exec_seal_of_checks_pass {s : State} (h : firstFault (sealChecks s) = none) :
    ∃ t, exec .aeadSeal s = .next t ∧ t.err = .ok := by
  refine ⟨s.afterChecks .aeadSeal, ?_, rfl⟩
  simp only [exec_eq_runChecked, State.runChecked, checksOf, h]

theorem exec_open_of_checks_pass {s : State} (h : firstFault (openChecks s) = none) :
    ∃ t, exec .aeadOpen s = .next t ∧ (t.err = .ok ∨ t.err = .auth) := by
  refine ⟨s.afterChecks .aeadOpen, ?_, ?_⟩
  · simp only [exec_eq_runChecked, State.runChecked, checksOf, h]
  · unfold State.afterChecks
    cases s.openResult with
    | some m => exact .inl rfl
    | none => exact .inr rfl

theorem work_of_busy {s : State} (hb : s.busy = true) : s.work = s.atPos s.nextPos := if_pos hb

/-- Settles O37: work is one position further (`work_frame`), and a change of phase is a move of `SEAL` or of `OPEN` with
its checks passed (`nextPos_phase`). -/
theorem phaseMovesOnlyAlongThePath : Obligations.PhaseMovesOnlyAlongThePath := by
  intro s hb
  refine ⟨work_frame s, ?_⟩
  rw [work_of_busy hb, State.atPos_phase]
  rcases nextPos_phase s with hsame | ⟨hd, hpass, hmove⟩ | ⟨hd, hpass, hmove⟩
  · exact .inl hsame
  · exact .inr (.inl ⟨hd, hmove, exec_seal_of_checks_pass hpass⟩)
  · exact .inr (.inr ⟨hd, hmove, exec_open_of_checks_pass hpass⟩)

/-! ### The block index -/

/-- Fewer than 2^32 bytes are at most 2^28 blocks (R24): the final block is there only where the bytes do not fill it. -/
theorem streamBlocks_le (em : Bool) {len : Nat} (hlen : len < 2 ^ 32) : streamBlocks em len ≤ 2 ^ 28 := by
  unfold streamBlocks
  split
  · rename_i hfinal
    simp only [hasFinalBlock, Bool.or_eq_true, Bool.and_eq_true, decide_eq_true_eq] at hfinal
    omega
  · omega

theorem ceilBlocks_le {len : Nat} (hlen : len < 2 ^ 32) : ceilBlocks len ≤ 2 ^ 28 := by
  unfold ceilBlocks
  omega

/-- A position whose block index is within the bound of R24. -/
def SeqPos.indexBounded (p : SeqPos) : Prop := p.idx < 2 ^ 28

theorem indexBounded_zero (ph : Phase) (st : Stream) : SeqPos.indexBounded ⟨ph, st, 0⟩ := Nat.two_pow_pos 28

theorem nextInRun_indexBounded {ph : Phase} {st : Stream} {k n : Nat} {after : SeqPos} (hn : n ≤ 2 ^ 28)
    (hafter : after.indexBounded) : (nextInRun ph st k n after).indexBounded := by
  unfold nextInRun
  split
  · rename_i hk
    exact Nat.lt_of_lt_of_le hk hn
  · exact hafter

theorem enterRun_indexBounded {ph : Phase} {st : Stream} {n : Nat} {after : SeqPos} (hafter : after.indexBounded) :
    (enterRun ph st n after).indexBounded := by
  unfold enterRun
  split
  · exact hafter
  · exact indexBounded_zero ph st

theorem finPos_indexBounded (ph : Phase) : (finPos ph).indexBounded := indexBounded_zero ph .fin

theorem afterAd_indexBounded (ph : Phase) (nMsg : Nat) : (afterAd ph nMsg).indexBounded :=
  enterRun_indexBounded (finPos_indexBounded ph)

theorem authStart_indexBounded (ph : Phase) (nAd nMsg : Nat) : (authStart ph nAd nMsg).indexBounded :=
  enterRun_indexBounded (afterAd_indexBounded ph nMsg)

theorem sealNext_indexBounded {nAd nMsg nKs : Nat} {p : SeqPos} (hAd : nAd ≤ 2 ^ 28) (hMsg : nMsg ≤ 2 ^ 28)
    (hKs : nKs ≤ 2 ^ 28) (hp : p.indexBounded) : (sealNext nAd nMsg nKs p).indexBounded := by
  unfold sealNext
  split
  · exact authStart_indexBounded _ _ _
  · exact nextInRun_indexBounded hAd (afterAd_indexBounded _ _)
  · exact nextInRun_indexBounded hMsg (finPos_indexBounded _)
  · exact indexBounded_zero _ _
  · exact nextInRun_indexBounded hKs hp
  · exact hp

theorem openNext_indexBounded {nAd nMsg nKs : Nat} {p : SeqPos} (hAd : nAd ≤ 2 ^ 28) (hMsg : nMsg ≤ 2 ^ 28)
    (hKs : nKs ≤ 2 ^ 28) (hp : p.indexBounded) : (openNext nAd nMsg nKs p).indexBounded := by
  unfold openNext
  split
  · exact indexBounded_zero _ _
  · exact nextInRun_indexBounded hKs (authStart_indexBounded _ _ _)
  · exact nextInRun_indexBounded hAd (afterAd_indexBounded _ _)
  · exact nextInRun_indexBounded hMsg (finPos_indexBounded _)
  · exact hp

theorem nextPos_indexBounded {s : State} (h : s.seqPos.indexBounded) : s.nextPos.indexBounded := by
  have hAd := streamBlocks_le s.cfg.emptyMarker s.latch.adLen.isLt
  have hbody : s.latch.srcLen.toNat - 16 < 2 ^ 32 := Nat.lt_of_le_of_lt (Nat.sub_le _ _) s.latch.srcLen.isLt
  unfold State.nextPos
  split
  · split
    · exact h
    · exact sealNext_indexBounded hAd (streamBlocks_le _ s.latch.srcLen.isLt) (ceilBlocks_le s.latch.srcLen.isLt) h
  · split
    · exact h
    · exact openNext_indexBounded hAd (streamBlocks_le _ hbody) (ceilBlocks_le hbody) h
  · exact h

/-! ### The invariant: the engine's turns -/

/-- A completion into a resting phase keeps the invariant (R28). -/
theorem State.Inv.complete {s : State} (h : s.Inv) (code : ErrCode) (n : Nat) {ph : Phase} (hph : ph.resting = true) :
    (s.complete code n ph).Inv :=
  { h with
    atRest := fun _ => ⟨hph, rfl, rfl⟩
    atWork := nofun
    seen := Nat.zero_le _
    index := Nat.two_pow_pos 28 }

theorem State.Inv.succeed {s : State} (h : s.Inv) (n : Nat) {ph : Phase} (hph : ph.resting = true) :
    (s.succeed n ph).Inv := h.complete .ok n hph

theorem State.Inv.raise {s : State} (h : s.Inv) (f : ErrCode) : (s.raise f).Inv :=
  { h.complete f 0 f.restingPhase_resting with }

/-- Loading a key computes its key lane (R243). -/
theorem State.Inv.loadKey {s : State} (h : s.Inv) (k : Key) : (s.loadKey k).Inv :=
  { h with keyed := fun _ => rfl, unkeyed := nofun }

theorem State.Inv.eraseKey {s : State} (h : s.Inv) : s.eraseKey.Inv :=
  { h with keyed := nofun, unkeyed := fun _ => ⟨rfl, rfl⟩ }

/-- A write of bytes inside `DMEM` keeps it canonical and inside its size (R60). -/
theorem State.Inv.dmemWrite {s : State} (h : s.Inv) (a : Nat) (x : List Byte)
    (hin : x.length = 0 ∨ a + x.length ≤ s.cfg.dmemSize) : { s with dmem := s.dmem.write a x }.Inv :=
  { h with
    canonical := Memory.wf_write x s.dmem a h.canonical
    within := Memory.within_write _ x s.dmem a h.within hin }

/-- Every command with a region of its own checks the bounds of its row of R70; the others have the empty output region. -/
theorem outputInside_of_checks_pass {i : Instr} {s : State} (h : firstFault (checksOf i s) = none) :
    s.regionInside (regionWritten i s.latch) := by
  have hbounds : (outOfBounds s.cfg.dmemSize i s.latch, .bounds) ∈ checksOf i s →
      s.regionInside (regionWritten i s.latch) := fun hmem =>
    (inBounds_iff _ _ _).1 ((outOfBounds_false _ _ _).1 (condition_of_checks_pass h hmem)).1
  cases i with
  | nop | aeadNew | clr | selb b => exact .inl rfl
  | aeadSeal => exact hbounds (by simp [checksOf, sealChecks])
  | aeadOpen => exact hbounds (by simp [checksOf, openChecks])
  | tbcEnc | tbcKsX1 | tbcKsX2 | tbcKsX4 | tbcTagX1 | tbcTagX2 | tbcTagX4 =>
    exact hbounds (by simp [checksOf, tbcChecks])

/-- `SELB` selects the hardware backend only past the check of the strap (R276). -/
theorem hwcap_of_selb_checks_pass {b : Backend} {s : State} (h : firstFault (checksOf (.selb b) s) = none) :
    b = .hw → s.cfg.hwcap = true := by
  have hcheck : (decide (b = .hw) && !s.cfg.hwcap) = false :=
    condition_of_checks_pass (f := .backend) h (by simp [checksOf])
  simpa using hcheck

theorem State.Inv.ownWrites {s u : State} {i : Instr} (h : s.Inv) (hpass : firstFault (checksOf i s) = none)
    (hu : OwnWrites s i u) : u.Inv := by
  cases hu with
  | nothing => exact h
  | newKey k => exact h.loadKey k
  | noKey => exact h.eraseKey
  | select b => exact { h with backend := hwcap_of_selb_checks_pass hpass }
  | bytes x hkey haddr hlen =>
    refine h.dmemWrite _ x ?_
    rw [← haddr, hlen]
    exact outputInside_of_checks_pass hpass

theorem State.Inv.runCommand {s t : State} (h : s.Inv) (hrun : s.runCommand = .next t) : t.Inv := by
  rcases runCommand_next s t hrun with ⟨i, -, hexec⟩ | ⟨e, -, rfl⟩
  · rcases exec_cases hexec with ⟨f, -, rfl⟩ | ⟨hpass, u, ph, hu, hph, rfl⟩
    · exact h.raise f
    · exact (h.ownWrites hpass hu).succeed _ hph
  · exact h.raise _

theorem State.Inv.work {s : State} (h : s.Inv) : s.work.Inv := by
  cases hb : s.busy with
  | false => rwa [State.work, hb]
  | true =>
    have hphase : s.nextPos.phase.working = true ∧ s.phase.pathIndex ≤ s.nextPos.phase.pathIndex := by
      rcases nextPos_phase s with hsame | ⟨-, -, hmove⟩ | ⟨-, -, hmove⟩
      · rw [hsame]
        exact ⟨h.atWork hb, Nat.le_refl _⟩
      · exact moves_forward (.inl hmove)
      · exact moves_forward (.inr hmove)
    have hindex : (s.atPos s.nextPos).idx.toNat < 2 ^ 28 :=
      Nat.lt_of_le_of_lt (Nat.mod_le _ _) (nextPos_indexBounded h.index)
    rw [work_of_busy hb]
    exact { h with
      atRest := fun hfree => by rw [State.atPos_busy, hb] at hfree; cases hfree
      atWork := fun _ => hphase.1
      seen := Nat.le_trans h.seen hphase.2
      index := hindex }

/-! ### The invariant: the host's moves -/

/-- The place a busy `STATUS` read shows is not before the last one shown and not after the engine's own (R29). -/
theorem drawnIndex_bounds {s : State} (h : s.seenPhase ≤ s.phase.pathIndex) :
    s.seenPhase ≤ s.drawnIndex ∧ s.drawnIndex ≤ s.phase.pathIndex := by
  have hdraw := Nat.mod_lt (Config.statusPhaseDraw s.freeCount) (Nat.add_one_pos (s.phase.pathIndex - s.seenPhase))
  unfold State.drawnIndex
  omega

theorem State.Inv.afterStatusRead {s : State} (h : s.Inv) : s.afterStatusRead.Inv := by
  unfold State.afterStatusRead
  split
  · exact { h with seen := (drawnIndex_bounds h.seen).2 }
  · exact h

theorem State.Inv.observe {s : State} (h : s.Inv) (o : HostSaw) : (s.observe o).Inv := { h with }

theorem State.Inv.hostRegRead {s : State} (h : s.Inv) (o : Nat) : (s.hostRegRead o).Inv := by
  unfold State.hostRegRead
  split
  · exact h.afterStatusRead.observe _
  · exact h.observe _

theorem State.Inv.accept {s : State} (h : s.Inv) (w : Word) : (s.accept w).Inv :=
  { h with
    atRest := nofun
    atWork := fun _ => rfl
    seen := Nat.zero_le _
    index := Nat.two_pow_pos 28 }

theorem State.Inv.writeReg {s : State} (h : s.Inv) (o : Nat) (w : Word) : (s.writeReg o w).Inv := by
  rcases writeReg_cases s o w with e | e | e | e <;> rw [e]
  · exact h.accept w
  · exact { h with }
  · exact { h with }
  · exact { h with }

/-- The invariant holds after reset on every platform of R9 (R40). -/
theorem State.Inv.powerOn {c : Config} (hc : c.wellFormed = true) : (State.powerOn c).Inv where
  config := hc
  canonical := rfl
  within := rfl
  keyed := nofun
  unkeyed _ := ⟨rfl, rfl⟩
  atRest _ := ⟨rfl, rfl, rfl⟩
  atWork := nofun
  seen := Nat.le_refl 0
  index := Nat.two_pow_pos 28
  backend hb := by
    cases hcap : c.hwcap with
    | true => exact hcap
    | false => simp [State.powerOn, hcap] at hb

/-- Settles O34: `State.reset` is the platform of the vectors, which satisfies R9. -/
theorem invHoldsAtReset : Obligations.InvHoldsAtReset :=
  ⟨State.Inv.powerOn (by decide), fun _ hc => State.Inv.powerOn hc⟩

/-- What an abandoned command leaves in its output region stays inside `DMEM` (R351). -/
theorem State.Inv.abandonedDmem {s : State} (h : s.Inv) : { s with dmem := s.abandonedDmem }.Inv := by
  refine h.dmemWrite _ _ ?_
  simp only [List.length_map, List.length_range]
  omega

theorem pulseReset_dmem_of_busy {s : State} (hb : s.busy = true) : s.pulseReset.dmem = s.abandonedDmem := if_pos hb

theorem pulseReset_dmem_of_free {s : State} (hb : s.busy = false) : s.pulseReset.dmem = s.dmem := by
  simp [State.pulseReset, hb]

theorem State.Inv.pulseReset {s : State} (h : s.Inv) : s.pulseReset.Inv := by
  have hdmem : s.pulseReset.dmem.wf = true ∧ s.pulseReset.dmem.within s.cfg.dmemSize = true := by
    cases hb : s.busy with
    | true =>
      rw [pulseReset_dmem_of_busy hb]
      exact ⟨h.abandonedDmem.canonical, h.abandonedDmem.within⟩
    | false =>
      rw [pulseReset_dmem_of_free hb]
      exact ⟨h.canonical, h.within⟩
  exact { State.Inv.powerOn h.config with canonical := hdmem.1, within := hdmem.2 }

theorem State.Inv.hostMove {m : HostMove} {s t : State} (h : s.Inv) (hm : hostMove m s = .next t) : t.Inv := by
  rcases hostMove_next m s t hm with ⟨o, z, -, -, rfl⟩ | ⟨o, z, w, -, -, rfl⟩ | ⟨a, n, -, -, -, rfl⟩ |
    ⟨a, x, -, -, hin, rfl⟩ | ⟨-, rfl⟩ | ⟨-, rfl⟩
  · exact h.hostRegRead o
  · exact h.writeReg o w
  · exact h.observe _
  · exact h.dmemWrite a x ((inBounds_iff _ _ _).1 hin)
  · exact h.observe _
  · exact h.pulseReset

theorem State.Inv.withTurns {s : State} (h : s.Inv) (turns : List Turn) : { s with turns := turns }.Inv := { h with }

theorem step_cfg {s t : State} (h : step s = .next t) : t.cfg = s.cfg := by
  rcases step_next s t h with ⟨-, -, rfl⟩ | ⟨rest, -, -, rfl⟩ | ⟨rest, -, rfl⟩ | ⟨m, rest, -, -, hm⟩ | ⟨left, -, hrun⟩
  · rfl
  · rfl
  · rw [work_frame]
  · exact (hostMove_cfg hm :)
  · obtain ⟨-, -, -, -, hcfg⟩ := runCommand_frame hrun
    exact hcfg

/-- Settles O35: each turn a step can take (`step_next`) keeps the invariant, the command in progress by what its checks
have passed. -/
theorem everyStepKeepsInv : Obligations.EveryStepKeepsInv := by
  intro s t hinv h
  refine ⟨?_, step_cfg h⟩
  rcases step_next s t h with ⟨-, -, rfl⟩ | ⟨rest, -, -, rfl⟩ | ⟨rest, -, rfl⟩ | ⟨m, rest, -, -, hm⟩ | ⟨left, -, hrun⟩
  · exact hinv
  · exact hinv.withTurns rest
  · exact (hinv.withTurns rest).work
  · exact (hinv.withTurns rest).hostMove hm
  · exact (hinv.withTurns left).runCommand hrun

end Sys2Proof.Machine
end

section
/-! PROOFS. What a command depends on (R22, R23, R70): its inputs are bytes of the regions it reads, through the latch; and
the length of what it writes (R34). -/

namespace Sys2Proof.Machine

/-! ### `OUT_LEN` -/

theorem dmemSize_le {s : State} (h : s.Inv) : s.cfg.dmemSize ≤ 2 ^ 32 := by
  have hcfg := h.config
  simp only [Config.wellFormed, Bool.and_eq_true, decide_eq_true_eq] at hcfg
  obtain ⟨⟨-, hsize⟩, -⟩ := hcfg
  exact hsize

/-- `SRC_LEN + 16` fits in 32 bits: were the output as long as all of a 2^32-byte `DMEM`, it would cover the nonce, which
R67 forbids. -/
theorem sealRegion_len_lt {s : State} (h : s.Inv) (hpass : firstFault (sealChecks s) = none) :
    s.latch.sealRegion.len < 2 ^ 32 := by
  have hsize := dmemSize_le h
  have hbounds : outOfBounds s.cfg.dmemSize .aeadSeal s.latch = false :=
    condition_of_checks_pass (f := .bounds) hpass (by simp [sealChecks])
  have hoverlap : forbiddenOverlap s.latch s.latch.sealRegion = false :=
    condition_of_checks_pass (f := .overlap) hpass (by simp [sealChecks])
  obtain ⟨hwritten, hread⟩ := (outOfBounds_false _ _ _).1 hbounds
  have hout := (inBounds_iff _ _ _).1 hwritten
  have hnonce := (inBounds_iff _ _ _).1 (hread s.latch.nonceRegion (by simp [regionsRead]))
  have hapart : ¬ s.latch.sealRegion.overlaps s.latch.nonceRegion = true := by
    simp only [forbiddenOverlap, Bool.or_eq_false_iff] at hoverlap
    obtain ⟨⟨hnonceApart, -⟩, -⟩ := hoverlap
    simp [hnonceApart]
  rw [Region.overlaps, overlap_iff] at hapart
  simp only [regionWritten, Descriptors.sealRegion, Descriptors.nonceRegion] at *
  omega

/-- The length of every command's output region is a 32-bit number. -/
theorem regionWritten_len_lt {i : Instr} {s : State} (h : s.Inv) (hpass : firstFault (checksOf i s) = none) :
    (regionWritten i s.latch).len < 2 ^ 32 := by
  cases i with
  | aeadSeal => exact sealRegion_len_lt h hpass
  | aeadOpen => exact Nat.lt_of_le_of_lt (Nat.sub_le _ _) s.latch.srcLen.isLt
  | nop | aeadNew | clr | selb b | tbcEnc | tbcKsX1 | tbcKsX2 | tbcKsX4 | tbcTagX1 | tbcTagX2 | tbcTagX4 =>
    simp [regionWritten, laneRegion]

/-- Settles O28: every command completes with the length of its output region in `OUT_LEN` (`exec_cases`), which does not
wrap around (`regionWritten_len_lt`). -/
theorem outLenCountsTheBytesWritten : Obligations.OutLenCountsTheBytesWritten := by
  intro i s t hinv h
  rcases exec_cases h with ⟨f, hf, rfl⟩ | ⟨hpass, u, ph, -, -, rfl⟩
  · simp [hf]
  · simpa using regionWritten_len_lt hinv hpass

/-! ### The descriptor registers are read only through the latch -/

/-- The state with other descriptor registers, the latch as it was. -/
def State.withDesc (s : State) (d : Descriptors) : State := { s with desc := d }

@[simp] theorem State.succeed_withDesc (s : State) (d : Descriptors) (n : Nat) (ph : Phase) :
    (s.withDesc d).succeed n ph = (s.succeed n ph).withDesc d := rfl

@[simp] theorem State.raise_withDesc (s : State) (d : Descriptors) (f : ErrCode) :
    (s.withDesc d).raise f = (s.raise f).withDesc d := rfl

@[simp] theorem State.store_withDesc (s : State) (d : Descriptors) (x : List Byte) :
    (s.withDesc d).store x = (s.store x).withDesc d := rfl

@[simp] theorem State.loadKey_withDesc (s : State) (d : Descriptors) (k : Key) :
    (s.withDesc d).loadKey k = (s.loadKey k).withDesc d := rfl

@[simp] theorem State.eraseKey_withDesc (s : State) (d : Descriptors) :
    (s.withDesc d).eraseKey = s.eraseKey.withDesc d := rfl

@[simp] theorem State.withDesc_latch (s : State) (d : Descriptors) : (s.withDesc d).latch = s.latch := rfl

/-- No check reads the descriptor registers. -/
theorem checksOf_withDesc (i : Instr) (s : State) (d : Descriptors) : checksOf i (s.withDesc d) = checksOf i s := by
  cases i <;> rfl

/-- No effect reads the descriptor registers, and every effect keeps them. -/
theorem afterChecks_withDesc (i : Instr) (s : State) (d : Descriptors) :
    (s.withDesc d).afterChecks i = (s.afterChecks i).withDesc d := by
  obtain ⟨hkey, henc, hks, htag, hseal, hopen⟩ := computed_congr s (s.withDesc d) rfl rfl rfl rfl
  cases i with
  | aeadOpen =>
    simp only [State.afterChecks, hopen]
    cases s.openResult <;> rfl
  | selb b => rfl
  | _ => simp [State.afterChecks, hkey, henc, hks, htag, hseal]

/-- Settles O30: neither the checks nor the effect read the descriptor registers, and a fault entry keeps them. -/
theorem commandsReadOnlyTheLatch : Obligations.CommandsReadOnlyTheLatch := by
  intro i s t d h
  change exec i (s.withDesc d) = .next (t.withDesc d)
  rw [exec_eq_runChecked] at h ⊢
  rw [checksOf_withDesc, afterChecks_withDesc]
  rcases runChecked_next _ _ _ _ h with ⟨f, hf, rfl⟩ | ⟨hnone, rfl⟩
  · simp only [State.runChecked, hf, State.raise_withDesc]
  · simp only [State.runChecked, hnone]

/-! ### Memories that agree on the regions a command reads -/

/-- Two memories hold the same bytes of a region. -/
def AgreeOn (m m' : Memory) (r : Region) : Prop := ∀ a, r.holds a → m.get a = m'.get a

theorem AgreeOn.get {m m' : Memory} {a n : Nat} (h : AgreeOn m m' ⟨a, n⟩) : ∀ k < n, m.get (a + k) = m'.get (a + k) :=
  fun k hk => h (a + k) ⟨Nat.le_add_right a k, Nat.add_lt_add_left hk a⟩

theorem AgreeOn.read {m m' : Memory} {a n : Nat} (h : AgreeOn m m' ⟨a, n⟩) : m.read a n = m'.read a n :=
  Memory.read_congr m m' a n h.get

theorem AgreeOn.readVec {m m' : Memory} {a n : Nat} (h : AgreeOn m m' ⟨a, n⟩) : m.readVec n a = m'.readVec n a :=
  Memory.readVec_congr m m' n a h.get

/-- Lane `j` is the `j`-th block of its lane region (R180). -/
theorem AgreeOn.readLane {m m' : Memory} {w : Word} {n j : Nat} (h : AgreeOn m m' (laneRegion w n)) (hj : j < n) :
    m.readBlock (w.toNat + 16 * j) = m'.readBlock (w.toNat + 16 * j) := by
  refine Memory.readVec_congr m m' 16 _ fun k hk => ?_
  rw [Nat.add_assoc]
  exact AgreeOn.get h (16 * j + k) (by omega)

section
variable {s : State} {m : Memory}

theorem keyOperand_congr (h : AgreeOn s.dmem m s.latch.keyRegion) : { s with dmem := m }.keyOperand = s.keyOperand :=
  (AgreeOn.readVec h).symm

/-- The operands of `SEAL` and `OPEN` are the bytes of the regions of their rows (R247, R252). -/
theorem aeadOperands_congr (hnonce : AgreeOn s.dmem m s.latch.nonceRegion) (had : AgreeOn s.dmem m s.latch.adRegion)
    (hsrc : AgreeOn s.dmem m s.latch.srcRegion) :
    { s with dmem := m }.nonceOperand = s.nonceOperand ∧ { s with dmem := m }.adOperand = s.adOperand ∧
      { s with dmem := m }.srcOperand = s.srcOperand :=
  ⟨(AgreeOn.readVec hnonce).symm, (AgreeOn.read had).symm, (AgreeOn.read hsrc).symm⟩

theorem sealResult_congr (hnonce : AgreeOn s.dmem m s.latch.nonceRegion) (had : AgreeOn s.dmem m s.latch.adRegion)
    (hsrc : AgreeOn s.dmem m s.latch.srcRegion) : { s with dmem := m }.sealResult = s.sealResult := by
  obtain ⟨en, ea, es⟩ := aeadOperands_congr hnonce had hsrc
  simp only [State.sealResult, en, ea, es]

theorem openResult_congr (hnonce : AgreeOn s.dmem m s.latch.nonceRegion) (had : AgreeOn s.dmem m s.latch.adRegion)
    (hsrc : AgreeOn s.dmem m s.latch.srcRegion) : { s with dmem := m }.openResult = s.openResult := by
  obtain ⟨en, ea, es⟩ := aeadOperands_congr hnonce had hsrc
  simp only [State.openResult, en, ea, es]

theorem laneTweak_congr {n j : Nat} (h : AgreeOn s.dmem m (laneRegion s.latch.twkAddr n)) (hj : j < n) :
    { s with dmem := m }.laneTweak j = s.laneTweak j := (h.readLane hj).symm

theorem laneBlock_congr {n j : Nat} (h : AgreeOn s.dmem m (laneRegion s.latch.srcAddr n)) (hj : j < n) :
    { s with dmem := m }.laneBlock j = s.laneBlock j := (h.readLane hj).symm

theorem encryptedBlock_congr (htwk : AgreeOn s.dmem m (laneRegion s.latch.twkAddr 1))
    (hsrc : AgreeOn s.dmem m (laneRegion s.latch.srcAddr 1)) :
    { s with dmem := m }.encryptedBlock = s.encryptedBlock := by
  simp only [State.encryptedBlock, laneTweak_congr htwk Nat.one_pos, laneBlock_congr hsrc Nat.one_pos]

theorem keystreamLanes_congr {n : Nat} (htwk : AgreeOn s.dmem m (laneRegion s.latch.twkAddr n))
    (hsrc : AgreeOn s.dmem m (laneRegion s.latch.srcAddr 1)) :
    { s with dmem := m }.keystreamLanes n = s.keystreamLanes n := by
  unfold State.keystreamLanes
  rw [List.flatMap_def, List.flatMap_def]
  refine congrArg List.flatten (List.map_congr_left fun j hj => ?_)
  rw [laneTweak_congr htwk (List.mem_range.1 hj), laneBlock_congr hsrc Nat.one_pos]

theorem accumulatedLanes_congr {n : Nat} (htwk : AgreeOn s.dmem m (laneRegion s.latch.twkAddr n))
    (hsrc : AgreeOn s.dmem m (laneRegion s.latch.srcAddr n)) (hdst : AgreeOn s.dmem m (laneRegion s.latch.dstAddr 1)) :
    { s with dmem := m }.accumulatedLanes n = s.accumulatedLanes n := by
  unfold State.accumulatedLanes
  rw [show m.readBlock s.latch.dstAddr.toNat = s.dmem.readBlock s.latch.dstAddr.toNat from
    (AgreeOn.readVec hdst).symm]
  refine List.foldl_rel (r := Eq) rfl fun j hj a b hab => ?_
  rw [hab, laneTweak_congr htwk (List.mem_range.1 hj), laneBlock_congr hsrc (List.mem_range.1 hj)]

end

/-! ### End states that agree outside memory and on the output region -/

/-- Two end states that a host cannot tell apart by what a command with the output region `r` has done. -/
structure SameResult (r : Region) (t u : State) : Prop where
  registers : t = { u with dmem := t.dmem }
  output : t.err = .ok → AgreeOn t.dmem u.dmem r

theorem SameResult.raise (s : State) (m : Memory) (r : Region) {f : ErrCode} (hf : f ≠ .ok) :
    SameResult r (s.raise f) ({ s with dmem := m }.raise f) :=
  ⟨rfl, fun hok => absurd hok hf⟩

/-- A command with no output region has nothing to agree on in memory. -/
theorem SameResult.of_registers {t u : State} (h : t = { u with dmem := t.dmem }) : SameResult ⟨0, 0⟩ t u :=
  ⟨h, fun _ a ha => absurd ha.2 (Nat.not_lt_zero a)⟩

/-- Canonical memories agree where the same bytes have been stored (R62). -/
theorem SameResult.store {s : State} {m : Memory} (hs : s.dmem.wf = true) (hm : m.wf = true) {r : Region}
    (x : List Byte) (haddr : r.addr = s.latch.dstAddr.toNat) (hlen : x.length = r.len) (n : Nat) (ph : Phase) :
    SameResult r ((s.store x).succeed n ph) (({ s with dmem := m }.store x).succeed n ph) := by
  refine ⟨rfl, fun _ a ha => ?_⟩
  obtain ⟨hlo, hhi⟩ := ha
  obtain ⟨k, rfl⟩ : ∃ k, a = s.latch.dstAddr.toNat + k := ⟨a - s.latch.dstAddr.toNat, by omega⟩
  have hk : k < x.length := by omega
  simp only [State.succeed_dmem, State.store_dmem]
  rw [Memory.get_write_inside x s.dmem _ k hk hs, Memory.get_write_inside x m _ k hk hm]

/-- The effect of a command on two memories that agree on what the command reads. -/
theorem afterChecks_sameResult (i : Instr) {s : State} {m : Memory} (hs : s.dmem.wf = true) (hm : m.wf = true)
    (hread : ∀ r ∈ regionsRead i s.latch, AgreeOn s.dmem m r) :
    SameResult (regionWritten i s.latch) (s.afterChecks i) ({ s with dmem := m }.afterChecks i) := by
  cases i <;> simp only [regionsRead, List.mem_cons, List.not_mem_nil, or_false, forall_eq_or_imp, forall_eq] at hread
  case nop => exact .of_registers rfl
  case clr => exact .of_registers rfl
  case selb b => exact .of_registers rfl
  case aeadNew =>
    refine .of_registers ?_
    simp only [State.afterChecks, keyOperand_congr hread]
    rfl
  case aeadSeal =>
    obtain ⟨hnonce, had, hsrc⟩ := hread
    simp only [State.afterChecks, sealResult_congr hnonce had hsrc]
    exact .store hs hm _ rfl (sealResult_length s) _ _
  case aeadOpen =>
    obtain ⟨hnonce, had, hsrc⟩ := hread
    simp only [State.afterChecks, openResult_congr hnonce had hsrc]
    cases hopen : s.openResult with
    | none => exact .raise s m _ (by decide)
    | some p => exact .store hs hm p rfl (openResult_length s p hopen).2 _ _
  case tbcEnc =>
    obtain ⟨htwk, hsrc⟩ := hread
    simp only [State.afterChecks, encryptedBlock_congr htwk hsrc]
    exact .store hs hm _ rfl (Vector.length_toList ..) _ _
  case tbcKsX1 | tbcKsX2 | tbcKsX4 =>
    obtain ⟨htwk, hsrc⟩ := hread
    simp only [State.afterChecks, keystreamLanes_congr htwk hsrc]
    exact .store hs hm _ rfl (keystreamLanes_length s _) _ _
  case tbcTagX1 | tbcTagX2 | tbcTagX4 =>
    obtain ⟨htwk, hsrc, hdst⟩ := hread
    simp only [State.afterChecks, accumulatedLanes_congr htwk hsrc hdst]
    exact .store hs hm _ rfl (Vector.length_toList ..) _ _

/-- No check reads memory: a fault does not depend on it. -/
theorem checksOf_withDmem (i : Instr) (s : State) (m : Memory) : checksOf i { s with dmem := m } = checksOf i s := by
  cases i <;> rfl

/-- Settles O25: the two runs take the same fault, or both have the command's effect (`afterChecks_sameResult`). -/
theorem commandsReadOnlyTheirInputRegions : Obligations.CommandsReadOnlyTheirInputRegions := by
  intro i s m t u hs hm hread ht hu
  have hsame : SameResult (regionWritten i s.latch) t u := by
    rw [exec_eq_runChecked] at ht hu
    rw [checksOf_withDmem] at hu
    cases hfirst : firstFault (checksOf i s) with
    | some f =>
      simp only [State.runChecked, hfirst, Host.Outcome.next.injEq] at ht hu
      subst ht hu
      exact .raise s m _ (checksOf_ne_ok i s f hfirst)
    | none =>
      simp only [State.runChecked, hfirst, Host.Outcome.next.injEq] at ht hu
      subst ht hu
      exact afterChecks_sameResult i hs hm hread
  exact ⟨hsame.registers, hsame.output⟩

end Sys2Proof.Machine
end

section
/-! PROOFS. From a turn of the host to the end of its command (R26, R28, R99): acceptance, the held write, completion. -/

namespace Sys2Proof.Machine

/-- However the engine's turn comes while it is busy, it runs the command in progress. -/
theorem engineTurn_runs {s : State} (hb : s.busy = true) : s.engineTurnIs State.runCommand :=
  engineTurnIs_of_runCommand s State.runCommand hb fun _ => rfl

/-- Settles O38: a write to `CMD` that nothing holds is the acceptance of its word. -/
theorem commandWriteIsAccepted : Obligations.CommandWriteIsAccepted := by
  intro s w rest hb hturn
  exact step_of_host_not_held s _ rest hturn (.inl hb)

/-- Settles O39: the held write leaves the engine its turn, which completes (`runCommand_frame`) with the write still to
come; then it is accepted. -/
theorem commandWriteIsHeldWhileBusy : Obligations.CommandWriteIsHeldWhileBusy := by
  intro s w rest hb hturn
  obtain ⟨-, -, hheld⟩ := engineTurn_runs hb
  obtain ⟨t, hrun⟩ := runCommand_answers s
  obtain ⟨hfree, hturns, hcmd, hdesc, -⟩ := runCommand_frame hrun
  have haccept := commandWriteIsAccepted t w rest hfree (hturns.trans hturn)
  exact ⟨t, (hheld w rest hturn).trans hrun, hfree, hturns, hcmd, _, haccept, rfl, rfl, hdesc, rfl⟩

/-- The word of a command decodes to it (R95, R96). -/
theorem decode_encode_of_wellFormed (i : Instr) (h : i.wellFormed = true) : decode (encode i) = .ok i :=
  match i with
  | .nop => (Laws.RoundTrip.nop h).2
  | .aeadNew => (Laws.RoundTrip.aeadNew h).2
  | .aeadSeal => (Laws.RoundTrip.aeadSeal h).2
  | .aeadOpen => (Laws.RoundTrip.aeadOpen h).2
  | .clr => (Laws.RoundTrip.clr h).2
  | .selb b => (Laws.RoundTrip.selb b h).2
  | .tbcEnc => (Laws.RoundTrip.tbcEnc h).2
  | .tbcKsX1 => (Laws.RoundTrip.tbcKsX1 h).2
  | .tbcKsX2 => (Laws.RoundTrip.tbcKsX2 h).2
  | .tbcKsX4 => (Laws.RoundTrip.tbcKsX4 h).2
  | .tbcTagX1 => (Laws.RoundTrip.tbcTagX1 h).2
  | .tbcTagX2 => (Laws.RoundTrip.tbcTagX2 h).2
  | .tbcTagX4 => (Laws.RoundTrip.tbcTagX4 h).2

/-- Settles O49: the first turn is the acceptance of the word (O38), the second the engine's, with the word decoded (O4). -/
theorem commandStatementRunsItsCommand : Obligations.CommandStatementRunsItsCommand := by
  intro s i rest hwf hb hturns
  obtain ⟨t, haccept, hbusy, hcmd, hlatch, hleft⟩ : ∃ t, step s = .next t ∧ t.busy = true ∧ t.cmd = encode i ∧
      t.latch = s.desc ∧ t.turns = .engineFinish :: rest :=
    ⟨_, commandWriteIsAccepted s (encode i) (.engineFinish :: rest) hb hturns, rfl, rfl, rfl, rfl⟩
  have hdecode : decode t.cmd = .ok i := by rw [hcmd, decode_encode_of_wellFormed i hwf]
  obtain ⟨-, hfinish, -⟩ := stepRunsTheAcceptedCommand t i hbusy hwf hdecode
  exact ⟨t, haccept, hbusy, hcmd, hlatch, hfinish rest hleft⟩

/-! ### Runs of the machine -/

theorem run_succ {s t : State} (h : step s = .next t) (k : Nat) :
    Host.Core.run Sys2Proof.core (k + 1) s = Host.Core.run Sys2Proof.core k t := by
  have hcore : Sys2Proof.core.step s = .next t := h
  simp only [Host.Core.run, hcore]

/-- A turn of the engine that runs the command in progress is a run of one step to a free state. -/
theorem completes_in_one {s u : State} (h : step s = u.runCommand) :
    ∃ t, Host.Core.run Sys2Proof.core 1 s = .next t ∧ t.busy = false := by
  obtain ⟨t, hrun⟩ := runCommand_answers u
  obtain ⟨hfree, -⟩ := runCommand_frame hrun
  exact ⟨t, run_succ (h.trans hrun) 0, hfree⟩

/-- Settles O36, by induction on the turns to come: a turn of work uses one up and leaves the engine busy, a turn to finish
completes, and so does the lack of turns. -/
theorem busyEngineCompletes : Obligations.BusyEngineCompletes := by
  intro s hb hall
  induction hturns : s.turns generalizing s with
  | nil =>
    obtain ⟨hdefault, -⟩ := engineTurn_runs hb
    obtain ⟨t, hrun, hfree⟩ := completes_in_one (hdefault hturns)
    exact ⟨1, t, Nat.le_refl 1, hrun, hfree⟩
  | cons x rest ih =>
    rcases hall x (by simp [hturns]) with rfl | rfl
    · have hwork : { s with turns := rest }.work.turns = rest := by rw [work_frame]
      have hbusy : { s with turns := rest }.work.busy = true := by rw [work_frame]; exact hb
      have hrest : ∀ y ∈ { s with turns := rest }.work.turns, y = .engineWork ∨ y = .engineFinish := by
        rw [hwork]
        exact fun y hy => hall y (by simp [hturns, hy])
      obtain ⟨k, t, hk, hrun, hfree⟩ := ih _ hbusy hrest hwork
      exact ⟨k + 1, t, Nat.succ_le_succ hk, (run_succ (step_of_engineWork s rest hturns) k).trans hrun, hfree⟩
    · obtain ⟨-, hfinish, -⟩ := engineTurn_runs hb
      obtain ⟨t, hrun, hfree⟩ := completes_in_one (hfinish rest hturns)
      exact ⟨1, t, Nat.succ_le_succ (Nat.zero_le _), hrun, hfree⟩

end Sys2Proof.Machine
end

section
/-! PROOFS. The register window, the interrupt pin and the reset input (spec/10_state.md section 4, R32, R40, R350). -/

namespace Sys2Proof.Machine

/-! ### Descriptor registers -/

/-- The window offsets of the ten descriptor registers (R21). -/
def descriptorOffsets : List Nat := [0x20, 0x24, 0x28, 0x2C, 0x30, 0x34, 0x38, 0x3C, 0x40, 0x44]

theorem Descriptors.get_put_same (d : Descriptors) {o : Nat} (w : Word) (ho : o ∈ descriptorOffsets) :
    (d.put o w).get o = some w := by
  simp only [descriptorOffsets, List.mem_cons, List.not_mem_nil, or_false] at ho
  rcases ho with rfl | rfl | rfl | rfl | rfl | rfl | rfl | rfl | rfl | rfl <;> rfl

/-- A write of one descriptor register is seen at no other offset. -/
theorem Descriptors.get_put_other (d : Descriptors) {o p : Nat} (w : Word) (hp : p ≠ o) :
    (d.put o w).get p = d.get p := by
  unfold Descriptors.put
  split <;> (unfold Descriptors.get; split <;> simp_all)

theorem Descriptors.put_of_notMem (d : Descriptors) {o : Nat} (w : Word) (ho : o ∉ descriptorOffsets) : d.put o w = d := by
  unfold Descriptors.put
  split
  case h_11 => rfl
  all_goals exact absurd (by decide) ho

theorem Descriptors.get_of_notMem (d : Descriptors) {o : Nat} (ho : o ∉ descriptorOffsets) : d.get o = none := by
  unfold Descriptors.get
  split
  case h_11 => rfl
  all_goals exact absurd (by decide) ho

theorem descriptorOffsets_bounds {o : Nat} (ho : o ∈ descriptorOffsets) : 0x20 ≤ o ∧ o ≤ 0x44 := by
  simp only [descriptorOffsets, List.mem_cons, List.not_mem_nil, or_false] at ho
  omega

/-- From offset 0x20 on a read is one of the descriptor registers, or of a reserved offset (R21, R41). -/
theorem readReg_of_ge (s : State) {o : Nat} (ho : 0x20 ≤ o) : s.readReg o = (s.desc.get o).getD 0 := by
  unfold State.readReg
  split
  case h_9 => rfl
  all_goals exact absurd ho (by decide)

/-- Only the offsets of `CMD`, `CTRL` and `INTSTAT` are written otherwise than through `Descriptors.put`. -/
theorem writeReg_eq_put (s : State) {o : Nat} (w : Word) (ho : o ≠ 0x00 ∧ o ≠ 0x0C ∧ o ≠ 0x10) :
    s.writeReg o w = { s with desc := s.desc.put o w } := by
  unfold State.writeReg
  split
  case h_4 => rfl
  all_goals simp at ho

/-- An aligned write is the write of the register (R72). -/
theorem hostMove_regWrite (s : State) {o : Nat} (w : Word) (ho : o % 4 = 0) :
    hostMove (.regWrite o 4 w) s = .next (s.writeReg o w) := by
  simp [hostMove, alignedAccess, ho]

theorem hostMove_regRead (s : State) {o : Nat} (ho : o % 4 = 0) : hostMove (.regRead o 4) s = .next (s.hostRegRead o) := by
  simp [hostMove, alignedAccess, ho]

theorem descriptorOffsets_aligned {o : Nat} (ho : o ∈ descriptorOffsets) : o % 4 = 0 := by
  simp only [descriptorOffsets, List.mem_cons, List.not_mem_nil, or_false] at ho
  omega

/-- Settles O40: the write is a `put`, and a read is a `get`. -/
theorem descriptorRegistersReadBack : Obligations.DescriptorRegistersReadBack := by
  intro s o w ho
  obtain ⟨hlo, -⟩ := descriptorOffsets_bounds ho
  have hwrite := writeReg_eq_put s w (o := o) (by omega)
  refine ⟨_, hostMove_regWrite s w (descriptorOffsets_aligned ho), by rw [hwrite], ?_, fun p hp hne => ?_⟩
  · rw [hwrite, readReg_of_ge _ hlo, Descriptors.get_put_same _ w ho]
    rfl
  · obtain ⟨hlo', -⟩ := descriptorOffsets_bounds hp
    rw [hwrite, readReg_of_ge _ hlo', readReg_of_ge _ hlo', Descriptors.get_put_other _ w hne]

/-! ### Reads, and offsets that ignore writes -/

/-- Only a `STATUS` read while busy leaves more than what the host saw (R73). -/
theorem hostRegRead_of_quiet (s : State) {o : Nat} (h : o ≠ 0x04 ∨ s.busy = false) :
    s.hostRegRead o = s.observe (.word (s.readReg o)) := by
  unfold State.hostRegRead State.afterStatusRead
  split
  · rename_i ho
    rw [if_neg]
    simpa [ho] using h
  · rfl

/-- Settles O59. -/
theorem registerReadsShowTheRegister : Obligations.RegisterReadsShowTheRegister := by
  intro s o ho hquiet
  rw [hostMove_regRead s ho, hostRegRead_of_quiet s hquiet]
  rfl

/-- Settles O41: such an offset names none of the registers that a write reaches; from 0x48 on a read finds none either. -/
theorem readOnlyAndReservedOffsetsIgnoreWrites : Obligations.ReadOnlyAndReservedOffsetsIgnoreWrites := by
  intro s o w halign ho
  simp only [List.mem_cons, List.not_mem_nil, or_false] at ho
  have hnotDesc : o ∉ descriptorOffsets := fun hmem => by
    have hbounds := descriptorOffsets_bounds hmem
    omega
  refine ⟨?_, fun hreserved => ?_⟩
  · rw [hostMove_regWrite s w halign, writeReg_eq_put s w (by omega), Descriptors.put_of_notMem _ w hnotDesc]
  · rw [registerReadsShowTheRegister s o halign (.inl (by omega)), readReg_of_ge s (by omega),
      Descriptors.get_of_notMem _ hnotDesc]
    rfl

/-! ### The words of the control and status registers -/

theorem getLsbD_append_ofBool_zero {w : Nat} (x : BitVec w) (b : Bool) : (x ++ BitVec.ofBool b).getLsbD 0 = b := by
  rw [BitVec.getLsbD_append]
  simp

theorem getLsbD_append_ofBool_succ {w : Nat} (x : BitVec w) (b : Bool) (k : Nat) :
    (x ++ BitVec.ofBool b).getLsbD (k + 1) = x.getLsbD k := by
  rw [BitVec.getLsbD_append]
  simp

theorem extractLsb'_append_ofBool {w : Nat} (x : BitVec w) (b : Bool) (start len : Nat) :
    (x ++ BitVec.ofBool b).extractLsb' (start + 1) len = x.extractLsb' start len :=
  BitVec.extractLsb'_append_eq_of_le (Nat.le_add_left 1 start)

/-- Two flags in bits 1 and 0, the shape of `CTRL` and of `INTSTAT` (R32). -/
def flagPair (b1 b0 : Bool) : Word := 0#30 ++ BitVec.ofBool b1 ++ BitVec.ofBool b0

theorem readReg_ctrl (s : State) : s.readReg 0x0C = flagPair s.ieErr s.ieDone := rfl

theorem readReg_intstat (s : State) : s.readReg 0x10 = flagPair s.intErr s.intDone := rfl

theorem flagPair_getLsbD_zero (b1 b0 : Bool) : (flagPair b1 b0).getLsbD 0 = b0 := getLsbD_append_ofBool_zero _ b0

theorem flagPair_getLsbD_one (b1 b0 : Bool) : (flagPair b1 b0).getLsbD 1 = b1 :=
  (getLsbD_append_ofBool_succ _ b0 0).trans (getLsbD_append_ofBool_zero _ b1)

theorem flagPair_getLsbD_above (b1 b0 : Bool) (k : Nat) : (flagPair b1 b0).getLsbD (k + 2) = false :=
  (getLsbD_append_ofBool_succ _ b0 (k + 1)).trans ((getLsbD_append_ofBool_succ _ b1 k).trans BitVec.getLsbD_zero)

theorem flagPair_extract_above (b1 b0 : Bool) : (flagPair b1 b0).extractLsb' 2 30 = 0 :=
  (extractLsb'_append_ofBool _ b0 1 30).trans ((extractLsb'_append_ofBool _ b1 0 30).trans BitVec.extractLsb'_eq_self)

/-- A word is a flag pair when its bits are. -/
theorem eq_flagPair {w : Word} {b1 b0 : Bool} (h0 : w.getLsbD 0 = b0) (h1 : w.getLsbD 1 = b1)
    (habove : ∀ k, w.getLsbD (k + 2) = false) : w = flagPair b1 b0 := by
  apply BitVec.eq_of_getLsbD_eq
  intro k _
  match k with
  | 0 => rw [h0, flagPair_getLsbD_zero]
  | 1 => rw [h1, flagPair_getLsbD_one]
  | k + 2 => rw [habove k, flagPair_getLsbD_above]

theorem and_flagPair (w : Word) (b1 b0 : Bool) :
    w &&& flagPair b1 b0 = flagPair (w.getLsbD 1 && b1) (w.getLsbD 0 && b0) := by
  refine eq_flagPair ?_ ?_ fun k => ?_
  · rw [BitVec.getLsbD_and, flagPair_getLsbD_zero]
  · rw [BitVec.getLsbD_and, flagPair_getLsbD_one]
  · rw [BitVec.getLsbD_and, flagPair_getLsbD_above, Bool.and_false]

theorem flagPair_ne_zero (b1 b0 : Bool) : (flagPair b1 b0 != 0) = (b1 || b0) := by
  cases b1 <;> cases b0 <;> rfl

/-- The pin is high exactly where a pending bit is enabled (R32, R321). -/
theorem irq_eq (s : State) : s.irq = (s.readReg 0x0C &&& s.readReg 0x10 != 0) := by
  rw [readReg_ctrl, readReg_intstat, and_flagPair, flagPair_getLsbD_one, flagPair_getLsbD_zero, flagPair_ne_zero]
  simp only [State.irq, Bool.and_comm, Bool.or_comm]

/-- Settles O42: the two registers are flag pairs, on which masking is bit by bit. -/
theorem interruptRegistersFollowTheirRule : Obligations.InterruptRegistersFollowTheirRule := by
  intro s w
  refine ⟨⟨s.writeCtrl w, rfl, rfl, ?_⟩, ⟨s.clearIntstat w, rfl, rfl, ?_⟩, ?_⟩
  · have hmask : (3 : Word) = flagPair true true := rfl
    rw [readReg_ctrl, hmask, and_flagPair, Bool.and_true, Bool.and_true]
    rfl
  · rw [readReg_intstat, readReg_intstat, BitVec.and_comm, and_flagPair]
    simp [Bool.and_comm]
  · rw [← irq_eq]
    rfl

/-- `STATUS[5:3]` (R27): above the three flags. -/
theorem statusWord_phase (s : State) (p : Phase) : (s.statusWord p).extractLsb' 3 3 = p.code :=
  (extractLsb'_append_ofBool _ _ 2 3).trans ((extractLsb'_append_ofBool _ _ 1 3).trans
    ((extractLsb'_append_ofBool _ _ 0 3).trans BitVec.extractLsb'_append_eq_right))

/-- The bits of `STATUS` from the backend's on, without the flags and the phase. -/
theorem statusWord_extract (s : State) (p : Phase) (start len : Nat) :
    (s.statusWord p).extractLsb' (start + 6) len = (0#24 ++ s.backend.code).extractLsb' start len :=
  (extractLsb'_append_ofBool _ _ (start + 5) len).trans ((extractLsb'_append_ofBool _ _ (start + 4) len).trans
    ((extractLsb'_append_ofBool _ _ (start + 3) len).trans
      (BitVec.extractLsb'_append_eq_of_le (Nat.le_add_left 3 start))))

/-- `STATUS[7:6]` (R27). -/
theorem statusWord_backend (s : State) (p : Phase) : (s.statusWord p).extractLsb' 6 2 = s.backend.code :=
  (statusWord_extract s p 0 2).trans BitVec.extractLsb'_append_eq_right

theorem statusWord_reserved (s : State) (p : Phase) : (s.statusWord p).extractLsb' 8 24 = 0 :=
  (statusWord_extract s p 2 24).trans BitVec.extractLsb'_append_eq_left

theorem statusWord_flags (s : State) (p : Phase) :
    (s.statusWord p).getLsbD 0 = s.busy ∧ (s.statusWord p).getLsbD 1 = s.keyValid ∧
      (s.statusWord p).getLsbD 2 = s.fatal :=
  ⟨getLsbD_append_ofBool_zero _ _,
    (getLsbD_append_ofBool_succ _ _ 0).trans (getLsbD_append_ofBool_zero _ _),
    (getLsbD_append_ofBool_succ _ _ 1).trans
      ((getLsbD_append_ofBool_succ _ _ 0).trans (getLsbD_append_ofBool_zero _ _))⟩

theorem statusShown_of_free {s : State} (hb : s.busy = false) : s.statusShown = s.statusWord s.phase := by
  simp [State.statusShown, hb]

theorem paramsWord_eq : paramsWord = 0x10100F20 := by decide

/-- Settles O43: field by field of `STATUS`, code by code of the phases, backends and faults; the other registers are their
words by definition. -/
theorem statusWordHoldsItsFields : Obligations.StatusWordHoldsItsFields := by
  intro s p
  obtain ⟨hbusy, hkey, hfatal⟩ := statusWord_flags s p
  refine ⟨⟨hbusy, hkey, hfatal, statusWord_reserved s p⟩, ?_, ?_, statusShown_of_free, ?_, paramsWord_eq, rfl, rfl, rfl,
    ⟨flagPair_getLsbD_zero _ _, flagPair_getLsbD_one _ _, flagPair_extract_above _ _⟩,
    ⟨flagPair_getLsbD_zero _ _, flagPair_getLsbD_one _ _, flagPair_extract_above _ _⟩,
    rfl, rfl, rfl, rfl, rfl, rfl, rfl, rfl, rfl, rfl⟩
  · rw [statusWord_phase]
    cases p <;> decide
  · rw [statusWord_backend]
    cases s.backend <;> decide
  · change (s.err, 0#24 ++ s.err.code) ∈ _
    cases s.err <;> decide

/-! ### A `STATUS` read while busy -/

/-- The phases at the places of the path that leads to `p` (R25). -/
theorem onPath_cases (p : Phase) {k : Nat} (hk : k ≤ p.pathIndex) :
    (k = 0 ∧ p.onPath k = .idle) ∨
    (k = 1 ∧ p.onPath k = .auth ∧ (p = .auth ∨ p = .enc)) ∨
    (k = 1 ∧ p.onPath k = .dec ∧ (p = .dec ∨ p = .reauth)) ∨
    (k = 2 ∧ p.onPath k = .enc ∧ p = .enc) ∨
    (k = 2 ∧ p.onPath k = .reauth ∧ p = .reauth) := by
  have hpath : p.pathIndex ≤ 2 := by cases p <;> decide
  match k with
  | 0 => exact .inl ⟨rfl, rfl⟩
  | 1 => revert hk; cases p <;> decide
  | 2 => revert hk; cases p <;> decide
  | k + 3 => omega

/-- Settles O44: the place drawn is between the last one shown and the engine's (`drawnIndex_bounds`). -/
theorem busyStatusReadShowsThePath : Obligations.BusyStatusReadShowsThePath := by
  intro s hb hseen
  obtain ⟨hlo, hhi⟩ := drawnIndex_bounds hseen
  refine ⟨s.drawnIndex, s.phase.onPath s.drawnIndex, hlo, hhi, onPath_cases s.phase hhi, ?_⟩
  have hshown : s.readReg 0x04 = s.statusWord (s.phase.onPath s.drawnIndex) := if_pos hb
  rw [hostMove_regRead s (by decide), State.hostRegRead, hshown, if_pos rfl, State.afterStatusRead, if_pos hb]
  rfl

/-! ### Reset -/

/-- The offsets of the registers that read 0 after reset (R40): all but `STATUS`, `PARAMS` and `CAPS`. -/
def zeroAtReset : List Nat :=
  [0x00, 0x08, 0x0C, 0x10, 0x1C, 0x20, 0x24, 0x28, 0x2C, 0x30, 0x34, 0x38, 0x3C, 0x40, 0x44]

theorem pulseReset_readReg (s : State) {o : Nat} (ho : o ∈ zeroAtReset) : s.pulseReset.readReg o = 0 := by
  have herr : s.pulseReset.readReg 0x08 = 0 := by
    change 0#24 ++ ErrCode.ok.code = (0 : Word)
    decide
  have hflags : flagPair false false = 0 := by decide
  simp only [zeroAtReset, List.mem_cons, List.not_mem_nil, or_false] at ho
  rcases ho with rfl | rfl | rfl | rfl | ho
  · rfl
  · exact herr
  · exact hflags
  · exact hflags
  · rcases ho with rfl | rfl | rfl | rfl | rfl | rfl | rfl | rfl | rfl | rfl | rfl <;> rfl

/-- `STATUS` after reset shows the backend the strap selects, and nothing else (R40). -/
theorem pulseReset_status (s : State) : s.pulseReset.readReg 0x04 = if s.cfg.hwcap then 0x80 else 0x40 := by
  change 0#24 ++ (if s.cfg.hwcap then Backend.hw else .ct64).code ++ Phase.idle.code ++ BitVec.ofBool false ++
    BitVec.ofBool false ++ BitVec.ofBool false = _
  cases s.cfg.hwcap <;> decide

/-- Settles O47. -/
theorem resetLeavesTheTableValues : Obligations.ResetLeavesTheTableValues := by
  intro s hb
  exact ⟨s.pulseReset, rfl, pulseReset_status s, fun o ho => pulseReset_readReg s ho, rfl, rfl, rfl, rfl, rfl,
    pulseReset_dmem_of_free hb, rfl⟩

/-- A reset stores nothing outside the output region of the command it abandons (R351). -/
theorem abandonedDmem_get_outside (s : State) {a : Nat} (ha : ¬ s.abandonedRegion.holds a) :
    s.abandonedDmem.get a = s.dmem.get a := by
  refine Memory.get_write_outside _ _ _ _ fun ⟨hlo, hhi⟩ => ha ⟨hlo, ?_⟩
  simp only [List.length_map, List.length_range] at hhi
  omega

theorem abandonedRegion_of_decode {s : State} {i : Instr} (hd : decode s.cmd = .ok i) :
    s.abandonedRegion = regionWritten i s.latch := by
  simp only [State.abandonedRegion, hd]

theorem abandonedRegion_of_illegal {s : State} {e : DecodeError} (hd : decode s.cmd = .error e) :
    s.abandonedRegion = ⟨0, 0⟩ := by
  simp only [State.abandonedRegion, hd]

/-- An illegal word has no output region, so that a reset stores nothing. -/
theorem abandonedDmem_of_illegal {s : State} {e : DecodeError} (hd : decode s.cmd = .error e) :
    s.abandonedDmem = s.dmem := by
  simp only [State.abandonedDmem, abandonedRegion_of_illegal hd, Nat.zero_min, List.range_zero, List.map_nil,
    Memory.write_nil]

/-- Settles O48: the values of R40 are those of `State.powerOn`; `DMEM` keeps what lies outside the abandoned region. -/
theorem resetAbandonsTheCommandInProgress : Obligations.ResetAbandonsTheCommandInProgress := by
  intro s hb
  refine ⟨s.pulseReset, rfl, fun i hd a ha => ?_, fun e hd => ?_,
    ⟨rfl, rfl, rfl, rfl, rfl, rfl, rfl, rfl, rfl, rfl⟩, ⟨rfl, rfl, rfl, rfl, rfl, rfl, rfl, rfl⟩, pulseReset_status s,
    fun o ho => pulseReset_readReg s ho, rfl, rfl, rfl⟩
  · rw [pulseReset_dmem_of_busy hb]
    refine abandonedDmem_get_outside s ?_
    rwa [abandonedRegion_of_decode hd]
  · rw [pulseReset_dmem_of_busy hb, abandonedDmem_of_illegal hd]

end Sys2Proof.Machine
end

section
/-! PROOFS. The data memory (spec/20_memory.md): the frame of every command (R68, R70), the host's two `DMEM` moves (R71)
and the accesses the register window does not have (R72). -/

namespace Sys2Proof.Machine

/-! ### What a command stores -/

/-- Of a command's own writes only the bytes stored at `DST_ADDR` reach memory, and they fill its output region. -/
theorem OwnWrites.get_outside {s u : State} {i : Instr} (h : OwnWrites s i u) {a : Nat}
    (ha : ¬ (regionWritten i s.latch).holds a) : u.dmem.get a = s.dmem.get a := by
  cases h with
  | nothing | newKey k | noKey | select b => rfl
  | bytes x hkey haddr hlen =>
    refine Memory.get_write_outside x s.dmem _ a ?_
    rwa [← haddr, hlen]

/-- Settles O24: a fault entry keeps memory, and a completion adds nothing to the command's own writes. -/
theorem commandsStoreOnlyInTheirOutputRegion : Obligations.CommandsStoreOnlyInTheirOutputRegion := by
  intro i s t h a hout
  rcases exec_cases h with ⟨f, hf, rfl⟩ | ⟨-, u, ph, hu, -, rfl⟩
  · rw [State.raise_dmem]
  · rw [State.succeed_dmem]
    exact hu.get_outside (hout (State.succeed_err ..))

/-! ### The host's `DMEM` moves -/

section
variable {s : State} {a n : Nat}

theorem dmemMove_of_inside (after : State) (hb : s.busy = false) (hin : n = 0 ∨ a + n ≤ s.cfg.dmemSize) :
    s.dmemMove a n after = .next after := by
  have hbounds := (inBounds_iff s.cfg.dmemSize a n).2 hin
  simp [State.dmemMove, hb, hbounds]

theorem dmemMove_of_outside (after : State) (hb : s.busy = false) (hn : n ≠ 0) (hout : s.cfg.dmemSize < a + n) :
    s.dmemMove a n after = .fault (.dmemOutside a n) := by
  have hbounds : ¬ inBounds s.cfg.dmemSize a n = true := by
    rw [inBounds_iff]
    omega
  simp [State.dmemMove, hb, hbounds]

theorem dmemMove_of_busy (after : State) (hb : s.busy = true) :
    s.dmemMove a n after = .refused (.dmemWhileBusy a n) := by
  simp [State.dmemMove, hb]

/-- A read inside `DMEM` shows the host `MemRead` of R62. -/
theorem hostMove_dmemRead (hb : s.busy = false) (hin : n = 0 ∨ a + n ≤ s.cfg.dmemSize) :
    hostMove (.dmemRead a n) s = .next (s.observe (.bytes (s.dmem.read a n))) :=
  dmemMove_of_inside _ hb hin

/-- A write inside `DMEM` is `MemWrite` of R62. -/
theorem hostMove_dmemWrite {x : List Byte} (hb : s.busy = false)
    (hin : x.length = 0 ∨ a + x.length ≤ s.cfg.dmemSize) :
    hostMove (.dmemWrite a x) s = .next { s with dmem := s.dmem.write a x } :=
  dmemMove_of_inside _ hb hin

end

/-- Byte `k` of a read is the byte at the `k`-th address (R62). -/
theorem Memory.read_getElem? (m : Memory) (a : Nat) {n k : Nat} (hk : k < n) :
    (m.read a n)[k]? = some (m.get (a + k)) := by
  have hlen : k < (m.read a n).length := by rwa [Memory.read_length]
  rw [List.getElem?_eq_getElem hlen, Memory.read_getElem]

/-- Settles O45: the outcome of each move is one of the three of `State.dmemMove`, and the bytes are those of the laws of
`Memory.read` and `Memory.write`. -/
theorem hostDmemMovesReadBack : Obligations.HostDmemMovesReadBack := by
  intro s a
  refine ⟨fun n hb hin => ?read, fun x hm hb hin => ?write, fun x hb hn hout => ?writeOutside,
    fun n hb hn hout => ?readOutside, fun x n hb => ?busy⟩
  case read =>
    exact ⟨hostMove_dmemRead hb hin, Memory.read_length _ _ _, fun k hk => Memory.read_getElem? _ _ hk⟩
  case write =>
    refine ⟨_, hostMove_dmemWrite hb hin, rfl, fun k hk => Memory.get_write_inside x s.dmem a k hk hm,
      fun b hout => Memory.get_write_outside x s.dmem a b hout, ?_⟩
    have hread := hostMove_dmemRead (s := { s with dmem := s.dmem.write a x }) hb hin
    rw [Memory.read_write_same s.dmem a x hm] at hread
    exact hread
  case writeOutside => exact dmemMove_of_outside _ hb hn hout
  case readOutside => exact dmemMove_of_outside _ hb hn hout
  case busy => exact ⟨dmemMove_of_busy _ hb, dmemMove_of_busy _ hb⟩

/-! ### Accesses the register window does not have -/

theorem alignedAccess_eq_false {o z : Nat} (h : z ≠ 4 ∨ o % 4 ≠ 0) : alignedAccess o z = false := by
  rw [alignedAccess, Bool.and_eq_false_iff, decide_eq_false_iff_not, decide_eq_false_iff_not]
  exact h

/-- Settles O46: no such access is an aligned one. -/
theorem unalignedWindowAccessIsRefused : Obligations.UnalignedWindowAccessIsRefused := by
  intro s o z w h
  have hshape := alignedAccess_eq_false h
  exact ⟨by simp [hostMove, hshape], by simp [hostMove, hshape]⟩

end Sys2Proof.Machine
end

section
/-! PROOFS. The command words (spec/30_encoding.md): the decoder and the encoder agree (R95, R96), and the words it
refuses are those R97 lists. -/

namespace Sys2Proof

/-! ### A word is its fields -/

theorem assemble_fields (w : Word) : opcField w ++ rsvField w ++ immField w = w :=
  calc opcField w ++ rsvField w ++ immField w
    _ = w.extractLsb' 8 24 ++ w.extractLsb' 0 8 :=
      congrArg (· ++ immField w) (BitVec.extractLsb'_append_extractLsb'_eq_extractLsb' rfl)
    _ = w.extractLsb' 0 32 := BitVec.extractLsb'_append_extractLsb'_eq_extractLsb' rfl
    _ = w := BitVec.extractLsb'_eq_self

/-- A word with `RSV = 0` is the one its opcode number and its `IMM` assemble to: no other bit is left (R91). -/
theorem eq_assemble {w : Word} {n : Nat} (hrsv : rsvField w = 0) (hopc : (opcField w).toNat = n) :
    w = assemble (BitVec.ofNat 8 n) (immField w) := by
  have hfield : opcField w = BitVec.ofNat 8 n := by rw [← hopc, BitVec.ofNat_toNat, BitVec.setWidth_eq]
  have hword := (assemble_fields w).symm
  rwa [hrsv, hfield] at hword

/-- An `IMM` with `IMM[7:2] = 0` is its two low bits. -/
theorem imm_eq_of_high {imm : BitVec 8} (h : imm.extractLsb' 2 6 = 0) : imm = 0#6 ++ imm.extractLsb' 0 2 := by
  have hsplit : imm.extractLsb' 2 6 ++ imm.extractLsb' 0 2 = imm := BitVec.extractLsb'_append_extractLsb'
  rw [h] at hsplit
  exact hsplit.symm

/-! ### The three formats (R92) -/

theorem Backend.code_ofCode (b : BitVec 2) : (Backend.ofCode b).code = b := by
  revert b
  decide

/-- A check before an answer: the command is accepted when the check passes and the answer is that command. -/
theorem checked_eq_ok_iff {p : Prop} [Decidable p] {r : Except DecodeError Instr} {e : DecodeError} {j : Instr} :
    (if p then r else .error e) = .ok j ↔ p ∧ r = .ok j := by
  by_cases h : p <;> simp [h]

theorem decodeZ_eq_ok_iff {imm : BitVec 8} {i j : Instr} : decodeZ imm i = .ok j ↔ imm = 0 ∧ i = j := by
  rw [decodeZ, checked_eq_ok_iff, Except.ok.injEq]

theorem decodeB_eq_ok_iff {imm : BitVec 8} {j : Instr} :
    decodeB imm = .ok j ↔ imm.extractLsb' 2 6 = 0 ∧ .selb (Backend.ofCode (imm.extractLsb' 0 2)) = j := by
  rw [decodeB, checked_eq_ok_iff, Except.ok.injEq]

/-- Format L accepts the lane codes 0, 1 and 2, one command each (R94). -/
theorem decodeL_eq_ok_iff {imm : BitVec 8} {x1 x2 x4 j : Instr} :
    decodeL imm x1 x2 x4 = .ok j ↔ imm.extractLsb' 2 6 = 0 ∧
      (imm.extractLsb' 0 2 = 0 ∧ x1 = j ∨ imm.extractLsb' 0 2 = 1 ∧ x2 = j ∨ imm.extractLsb' 0 2 = 2 ∧ x4 = j) := by
  rw [decodeL, checked_eq_ok_iff]
  generalize imm.extractLsb' 0 2 = lane
  match lane with
  | 0#2 | 1#2 | 2#2 | 3#2 => simp

/-- The same acceptance, as R97 has it: a lane code other than 3. -/
theorem decodeL_accepts_iff {imm : BitVec 8} {x1 x2 x4 : Instr} :
    (∃ j, decodeL imm x1 x2 x4 = .ok j) ↔ imm.extractLsb' 2 6 = 0 ∧ imm.extractLsb' 0 2 ≠ 3 := by
  simp only [decodeL_eq_ok_iff]
  generalize imm.extractLsb' 0 2 = lane
  match lane with
  | 0#2 | 1#2 | 2#2 | 3#2 => simp

/-! ### What the decoder can answer -/

/-- How the decoder reads the word `w`, and its answer: by the format of the opcode number `n`, whose commands are the
rows of the opcode map R95 with that number. -/
inductive DecodedAs (w : Word) : Except DecodeError Instr → Prop where
  | reserved (hrsv : rsvField w ≠ 0) : DecodedAs w (.error .reservedField)
  | formatZ {n : Nat} {i : Instr} (hrsv : rsvField w = 0) (hopc : (opcField w).toNat = n)
      (hn : n ∈ [0x00, 0x01, 0x02, 0x03, 0x04, 0x10]) (hrow : encode i = assemble (BitVec.ofNat 8 n) 0) :
      DecodedAs w (decodeZ (immField w) i)
  | formatB (hrsv : rsvField w = 0) (hopc : (opcField w).toNat = 0x05) : DecodedAs w (decodeB (immField w))
  | formatL {n : Nat} {x1 x2 x4 : Instr} (hrsv : rsvField w = 0) (hopc : (opcField w).toNat = n)
      (hn : n ∈ [0x11, 0x12]) (hrow1 : encode x1 = assemble (BitVec.ofNat 8 n) 0)
      (hrow2 : encode x2 = assemble (BitVec.ofNat 8 n) 1) (hrow4 : encode x4 = assemble (BitVec.ofNat 8 n) 2) :
      DecodedAs w (decodeL (immField w) x1 x2 x4)
  | unknown (hrsv : rsvField w = 0)
      (hopc : (opcField w).toNat ∉ [0x00, 0x01, 0x02, 0x03, 0x04, 0x05, 0x10, 0x11, 0x12]) :
      DecodedAs w (.error .unknownOpcode)

theorem decode_cases (w : Word) : DecodedAs w (decode w) := by
  by_cases hrsv : rsvField w = 0
  case neg =>
    rw [decode, if_pos hrsv]
    exact .reserved hrsv
  case pos =>
    rw [decode, if_neg (not_not_intro hrsv)]
    split
    · next hopc => exact .formatZ hrsv hopc (by decide) rfl
    · next hopc => exact .formatZ hrsv hopc (by decide) rfl
    · next hopc => exact .formatZ hrsv hopc (by decide) rfl
    · next hopc => exact .formatZ hrsv hopc (by decide) rfl
    · next hopc => exact .formatZ hrsv hopc (by decide) rfl
    · next hopc => exact .formatB hrsv hopc
    · next hopc => exact .formatZ hrsv hopc (by decide) rfl
    · next hopc => exact .formatL hrsv hopc (by decide) rfl rfl rfl
    · next hopc => exact .formatL hrsv hopc (by decide) rfl rfl rfl
    · exact .unknown hrsv (by simp_all)

/-! ### Decode and encode -/

/-- A word is accepted only as the word of its command. -/
theorem DecodedAs.eq_encode {w : Word} {r : Except DecodeError Instr} (h : DecodedAs w r) {i : Instr} (hr : r = .ok i) :
    w = encode i := by
  cases h with
  | reserved | unknown => cases hr
  | formatZ hrsv hopc hn hrow =>
    obtain ⟨himm, rfl⟩ := decodeZ_eq_ok_iff.mp hr
    rw [hrow, ← himm]
    exact eq_assemble hrsv hopc
  | formatB hrsv hopc =>
    obtain ⟨hhigh, rfl⟩ := decodeB_eq_ok_iff.mp hr
    rw [encode, Backend.code_ofCode, ← imm_eq_of_high hhigh]
    exact eq_assemble hrsv hopc
  | formatL hrsv hopc hn hrow1 hrow2 hrow4 =>
    obtain ⟨hhigh, hlane⟩ := decodeL_eq_ok_iff.mp hr
    have hword := eq_assemble hrsv hopc
    rw [imm_eq_of_high hhigh] at hword
    obtain ⟨hl, rfl⟩ | ⟨hl, rfl⟩ | ⟨hl, rfl⟩ := hlane
    · rw [hrow1, hword, hl]; rfl
    · rw [hrow2, hword, hl]; rfl
    · rw [hrow4, hword, hl]; rfl

/-- Every command is well formed: the backend numbers are all legal (R93). -/
theorem Instr.wellFormed_eq_true (i : Instr) : i.wellFormed = true := by
  cases i <;> rfl

theorem decode_encode (i : Instr) : decode (encode i) = .ok i :=
  Machine.decode_encode_of_wellFormed i i.wellFormed_eq_true

/-- Settles O1: an accepted word is its command's word by the format of its opcode, and that word decodes to the
command. -/
theorem decodeAcceptsExactlyTheEncodedWord : Obligations.DecodeAcceptsExactlyTheEncodedWord := by
  intro w i
  constructor
  · intro h
    exact ⟨i.wellFormed_eq_true, (decode_cases w).eq_encode h⟩
  · rintro ⟨-, rfl⟩
    exact decode_encode i

/-! ### The illegal words (R97) -/

/-- The list of R97 over the fields of the word. -/
theorem CommandWord.wellFormed_iff (w : Word) :
    CommandWord.wellFormed w = true ↔
      rsvField w = 0 ∧
      (opcField w).toNat ∈ [0x00, 0x01, 0x02, 0x03, 0x04, 0x05, 0x10, 0x11, 0x12] ∧
      ((opcField w).toNat ∈ [0x00, 0x01, 0x02, 0x03, 0x04, 0x10] → immField w = 0) ∧
      ((opcField w).toNat ∈ [0x05, 0x11, 0x12] → (immField w).extractLsb' 2 6 = 0) ∧
      ((opcField w).toNat ∈ [0x11, 0x12] → (immField w).extractLsb' 0 2 ≠ 3) := by
  have hhigh : (immField w).extractLsb' 2 6 = w.extractLsb' 2 6 := BitVec.extractLsb'_extractLsb'_of_le (by decide)
  have hlow : (immField w).extractLsb' 0 2 = w.extractLsb' 0 2 := BitVec.extractLsb'_extractLsb'_of_le (by decide)
  rw [hhigh, hlow]
  simp only [CommandWord.wellFormed, reservedClear, opcodeKnown, formatZ, formatBL, laneCode, Bool.and_eq_true,
    Bool.or_eq_true, Bool.not_eq_true', ← Bool.not_eq_true, List.contains_iff_mem, beq_iff_eq, bne_iff_ne,
    ← Decidable.imp_iff_not_or, and_assoc]
  rfl

/-- The opcode numbers of format Z are in the map, and none of them is of format B or L (R95). -/
theorem formatZ_numbers : ∀ n ∈ [0x00, 0x01, 0x02, 0x03, 0x04, 0x10],
    n ∈ [0x00, 0x01, 0x02, 0x03, 0x04, 0x05, 0x10, 0x11, 0x12] ∧ n ∉ [0x05, 0x11, 0x12] ∧ n ∉ [0x11, 0x12] := by
  decide

/-- The opcode numbers of format L are in the map, and none of them is of format Z (R95). -/
theorem formatL_numbers : ∀ n ∈ [0x11, 0x12],
    n ∈ [0x00, 0x01, 0x02, 0x03, 0x04, 0x05, 0x10, 0x11, 0x12] ∧ n ∉ [0x00, 0x01, 0x02, 0x03, 0x04, 0x10] ∧
      n ∈ [0x05, 0x11, 0x12] := by
  decide

theorem DecodedAs.accepts_iff {w : Word} {r : Except DecodeError Instr} (h : DecodedAs w r) :
    (∃ i, r = .ok i) ↔ CommandWord.wellFormed w = true := by
  rw [CommandWord.wellFormed_iff]
  cases h with
  | reserved hrsv => exact iff_of_false nofun fun ⟨hclear, _⟩ => hrsv hclear
  | unknown hrsv hopc => exact iff_of_false nofun fun ⟨_, hknown, _⟩ => hopc hknown
  | formatZ hrsv hopc hn hrow =>
    obtain ⟨hknown, hnotBL, hnotL⟩ := formatZ_numbers _ hn
    rw [hopc]
    constructor
    · rintro ⟨j, hj⟩
      obtain ⟨himm, -⟩ := decodeZ_eq_ok_iff.mp hj
      exact ⟨hrsv, hknown, fun _ => himm, fun hBL => absurd hBL hnotBL, fun hL => absurd hL hnotL⟩
    · rintro ⟨-, -, himm, -, -⟩
      exact ⟨_, decodeZ_eq_ok_iff.mpr ⟨himm hn, rfl⟩⟩
  | formatB hrsv hopc =>
    rw [hopc]
    constructor
    · rintro ⟨j, hj⟩
      obtain ⟨hhigh, -⟩ := decodeB_eq_ok_iff.mp hj
      exact ⟨hrsv, by decide, fun hZ => absurd hZ (by decide), fun _ => hhigh, fun hL => absurd hL (by decide)⟩
    · rintro ⟨-, -, -, hhigh, -⟩
      exact ⟨_, decodeB_eq_ok_iff.mpr ⟨hhigh (by decide), rfl⟩⟩
  | formatL hrsv hopc hn hrow1 hrow2 hrow4 =>
    obtain ⟨hknown, hnotZ, hBL⟩ := formatL_numbers _ hn
    rw [decodeL_accepts_iff, hopc]
    constructor
    · rintro ⟨hhigh, hlane⟩
      exact ⟨hrsv, hknown, fun hZ => absurd hZ hnotZ, fun _ => hhigh, fun _ => hlane⟩
    · rintro ⟨-, -, -, hhigh, hlane⟩
      exact ⟨hhigh hBL, hlane hn⟩

/-- Settles O2: format by format, the checks of the decoder are those of the list. -/
theorem decoderRefusesExactlyTheIllegalWords : Obligations.DecoderRefusesExactlyTheIllegalWords :=
  fun w => (decode_cases w).accepts_iff

/-! ### The opcode map (R95) -/

/-- Settles O3: the words are those `encode` writes, so the first part is `decode_encode` row by row, and a word that
decodes is one of them by O1. -/
theorem opcodeMapWordsDecode : Obligations.OpcodeMapWordsDecode := by
  refine ⟨⟨decode_encode .nop, decode_encode .aeadNew, decode_encode .aeadSeal, decode_encode .aeadOpen,
    decode_encode .clr, decode_encode (.selb .ct32), decode_encode (.selb .ct64), decode_encode (.selb .hw),
    decode_encode (.selb .varTime), decode_encode .tbcEnc, decode_encode .tbcKsX1, decode_encode .tbcKsX2,
    decode_encode .tbcKsX4, decode_encode .tbcTagX1, decode_encode .tbcTagX2, decode_encode .tbcTagX4⟩, ?_⟩
  intro w i h
  obtain ⟨-, rfl⟩ := (decodeAcceptsExactlyTheEncodedWord w i).mp h
  cases i with
  | selb b => cases b <;> decide
  | _ => decide

end Sys2Proof
end

section
/-! PROOFS. The round function (spec/40_round_function.md): the S-box is what R123 says, and every layer of a round, so
`EncryptSTK` (R128), is a permutation of the blocks. -/

namespace Sys2Proof.Machine

/-! ### The S-box (R121, R122, R123) -/

/-- The inverse of the affine map of R123. -/
def sboxAffineInv (c : Byte) : Byte := c.rotateLeft 1 ^^^ c.rotateLeft 3 ^^^ c.rotateLeft 6 ^^^ 0x05

/-- The field inverse that R123 reads in the table, 0 at 0: the entry with the affine map taken off. That it is the
inverse is `gfMul_gfInv`. -/
def gfInv (a : Byte) : Byte := sboxAffineInv (sbox a)

/-- The rotations of R123 are invertible together. -/
theorem sboxAffine_sboxAffineInv (c : Byte) : sboxAffine (sboxAffineInv c) = c := by
  revert c
  decide +kernel

/-- R123 at each of the 256 bytes: the product in the field does not use the table. -/
theorem gfMul_gfInv (a : Byte) : (a = 0 ∧ gfInv a = 0) ∨ gfMul a (gfInv a) = 1 := by
  revert a
  decide +kernel

/-- Inverting twice gives the byte back, as in every field. -/
theorem gfInv_gfInv (a : Byte) : gfInv (gfInv a) = a := by
  revert a
  decide +kernel

theorem sbox_eq_sboxAffine (a : Byte) : sbox a = sboxAffine (gfInv a) := (sboxAffine_sboxAffineInv (sbox a)).symm

/-- Settles O50: the byte is `gfInv a`. -/
theorem sboxIsAffineOfInverse : Obligations.SboxIsAffineOfInverse :=
  fun a => ⟨gfInv a, gfMul_gfInv a, sbox_eq_sboxAffine a⟩

/-- The inverse of the S-box: the affine map taken off, then the field inverse. -/
def sboxInv (c : Byte) : Byte := gfInv (sboxAffineInv c)

theorem sboxInv_sbox (a : Byte) : sboxInv (sbox a) = a := gfInv_gfInv a

theorem sbox_sboxInv (c : Byte) : sbox (sboxInv c) = c := by
  rw [sbox_eq_sboxAffine, sboxInv, gfInv_gfInv, sboxAffine_sboxAffineInv]

/-! ### Permutations -/

/-- The map is one to one and reaches everything. -/
structure IsPermutation {α : Type} (f : α → α) : Prop where
  injective : ∀ x y, f x = f y → x = y
  surjective : ∀ y, ∃ x, f x = y

section
variable {α : Type} {f g : α → α}

theorem IsPermutation.of_inverse (hleft : ∀ x, g (f x) = x) (hright : ∀ y, f (g y) = y) : IsPermutation f where
  injective x y h := by rw [← hleft x, h, hleft]
  surjective y := ⟨g y, hright y⟩

/-- `ShiftRows` and `MixColumns` are of this kind. -/
theorem IsPermutation.of_order_four (h : ∀ x, f (f (f (f x))) = x) : IsPermutation f :=
  .of_inverse (g := fun x => f (f (f x))) h h

theorem IsPermutation.comp (hg : IsPermutation g) (hf : IsPermutation f) : IsPermutation fun x => g (f x) where
  injective x y h := hf.injective x y (hg.injective _ _ h)
  surjective z := by
    obtain ⟨y, rfl⟩ := hg.surjective z
    obtain ⟨x, rfl⟩ := hf.surjective y
    exact ⟨x, rfl⟩

end

/-! ### The byte layers: `SubBytes`, `ShiftRows`, `AddSTK` (R122, R124, R126) -/

theorem subBytes_getElem (s : Block) (k : Nat) (h : k < 16) : (subBytes s)[k] = sbox s[k] := Vector.getElem_ofFn h

theorem subBytes_isPermutation : IsPermutation subBytes := by
  refine .of_inverse (g := Vector.map sboxInv) (fun s => ?_) (fun s => ?_)
  · apply Vector.ext
    intro k hk
    rw [Vector.getElem_map, subBytes_getElem, sboxInv_sbox]
  · apply Vector.ext
    intro k hk
    rw [subBytes_getElem, Vector.getElem_map, sbox_sboxInv]

theorem shiftRows_getElem (s : Block) (k : Nat) (h : k < 16) : (shiftRows s)[k] = s[shiftRowsIndex[k]] :=
  Vector.getElem_ofFn h

/-- Row `r` moves by `r` columns, so four times brings every byte home. -/
theorem shiftRowsIndex_four (k : Fin 16) :
    shiftRowsIndex[shiftRowsIndex[shiftRowsIndex[shiftRowsIndex[k]]]] = k := by
  revert k
  decide

theorem shiftRows_isPermutation : IsPermutation shiftRows := by
  refine .of_order_four fun s => ?_
  apply Vector.ext
  intro k hk
  have hfour := shiftRowsIndex_four ⟨k, hk⟩
  simp only [Fin.getElem_fin] at hfour
  simp only [shiftRows_getElem, Fin.getElem_fin, hfour]

theorem addStk_addStk (s k : Block) : addStk (addStk s k) k = s := by
  simp only [addStk, xorBlock_cancel]

theorem addStk_isPermutation (k : Block) : IsPermutation (addStk · k) :=
  .of_inverse (g := (addStk · k)) (addStk_addStk · k) (addStk_addStk · k)

/-! ### `MixColumns` (R125) -/

theorem and_0x80_ne_zero_iff (a : Byte) : a &&& 0x80 ≠ 0 ↔ a.msb = true := by
  revert a
  decide +kernel

theorem xor_left_comm (a b c : Byte) : a ^^^ (b ^^^ c) = b ^^^ (a ^^^ c) := by
  rw [← BitVec.xor_assoc, BitVec.xor_comm a, BitVec.xor_assoc]

theorem xor_xor_cancel (a b : Byte) : a ^^^ (a ^^^ b) = b := by
  rw [← BitVec.xor_assoc, BitVec.xor_self, BitVec.zero_xor]

/-- The reduction by 0x1B of two top bits together. -/
theorem reduction_xor (x y : Bool) :
    (if (x ^^ y) = true then 0x1B else 0x00 : Byte) =
      (if x = true then 0x1B else 0x00) ^^^ (if y = true then 0x1B else 0x00) := by
  cases x <;> cases y <;> rfl

/-- Doubling is linear: the shift is, and so is the reduction, which depends on the top bit alone. -/
theorem mul2_xor (a b : Byte) : mul2 (a ^^^ b) = mul2 a ^^^ mul2 b := by
  simp only [mul2, and_0x80_ne_zero_iff, BitVec.msb_xor, BitVec.shiftLeft_xor_distrib, reduction_xor,
    BitVec.xor_assoc, xor_left_comm]

/-- What two `MixColumns` make of a byte `a` and the byte `c` two rows away: the square of the matrix of R125 is
`5 * a + 4 * c`. -/
def mixTwice (a c : Byte) : Byte := a ^^^ mul2 (mul2 (a ^^^ c))

/-- In characteristic 2 the square of `5 * a + 4 * c` leaves `a` alone. -/
theorem mixTwice_mixTwice (a c : Byte) : mixTwice (mixTwice a c) (mixTwice c a) = a := by
  simp only [mixTwice, mul2_xor, BitVec.xor_assoc, BitVec.xor_comm, xor_left_comm, BitVec.xor_self,
    BitVec.xor_zero]

/-- The matrix of R125 is circulant: each row is the first, on the column read from that row on. -/
theorem mixRow_one (a b c d : Byte) : mixRow 1 a b c d = mixRow 0 b c d a := by
  simp only [mixRow, BitVec.xor_assoc, BitVec.xor_comm, xor_left_comm]

theorem mixRow_two (a b c d : Byte) : mixRow 2 a b c d = mixRow 0 c d a b := by
  simp only [mixRow, BitVec.xor_assoc, BitVec.xor_comm, xor_left_comm]

theorem mixRow_three (a b c d : Byte) : mixRow 3 a b c d = mixRow 0 d a b c := by
  simp only [mixRow, BitVec.xor_comm, xor_left_comm]

/-- The first row of the square of the matrix; of the field only the linearity of doubling is used. -/
theorem mixRow_zero_twice (a b c d : Byte) :
    mixRow 0 (mixRow 0 a b c d) (mixRow 0 b c d a) (mixRow 0 c d a b) (mixRow 0 d a b c) = mixTwice a c := by
  simp only [mixRow, mul3, mixTwice, mul2_xor, BitVec.xor_assoc, BitVec.xor_comm, xor_left_comm,
    xor_xor_cancel]

/-- `MixColumns` on one column: the matrix of R125 times it. -/
def mixColumn (a : Vector Byte 4) : Vector Byte 4 := Vector.ofFn fun r => mixRow r a[0] a[1] a[2] a[3]

/-- The square of the matrix, on one column. -/
def mixColumnTwice (a : Vector Byte 4) : Vector Byte 4 :=
  #v[mixTwice a[0] a[2], mixTwice a[1] a[3], mixTwice a[2] a[0], mixTwice a[3] a[1]]

theorem mixColumn_getElem (a : Vector Byte 4) (r : Nat) (h : r < 4) :
    (mixColumn a)[r] = mixRow r a[0] a[1] a[2] a[3] := Vector.getElem_ofFn h

theorem mixColumn_mixColumn (a : Vector Byte 4) : mixColumn (mixColumn a) = mixColumnTwice a := by
  apply Vector.ext
  intro r hr
  simp only [mixColumn_getElem, mixRow_one, mixRow_two, mixRow_three]
  match r with
  | 0 => exact mixRow_zero_twice _ _ _ _
  | 1 => exact (mixRow_one _ _ _ _).trans (mixRow_zero_twice _ _ _ _)
  | 2 => exact (mixRow_two _ _ _ _).trans (mixRow_zero_twice _ _ _ _)
  | 3 => exact (mixRow_three _ _ _ _).trans (mixRow_zero_twice _ _ _ _)

theorem mixColumnTwice_mixColumnTwice (a : Vector Byte 4) : mixColumnTwice (mixColumnTwice a) = a := by
  apply Vector.ext
  intro r hr
  match r with
  | 0 => exact mixTwice_mixTwice a[0] a[2]
  | 1 => exact mixTwice_mixTwice a[1] a[3]
  | 2 => exact mixTwice_mixTwice a[2] a[0]
  | 3 => exact mixTwice_mixTwice a[3] a[1]

/-- Column `c` of a block (R120). -/
def column (s : Block) (c : Fin 4) : Vector Byte 4 := Vector.ofFn fun r => s[4 * c.val + r.val]

theorem block_ext_of_columns {s t : Block} (h : ∀ c, column s c = column t c) : s = t := by
  apply Vector.ext
  intro k hk
  have hbyte := congrArg (fun v : Vector Byte 4 => v[k % 4]) (h ⟨k / 4, by omega⟩)
  simpa [column, Nat.div_add_mod] using hbyte

theorem column_mixColumns (s : Block) (c : Fin 4) : column (mixColumns s) c = mixColumn (column s c) := by
  apply Vector.ext
  intro r hr
  have hrow : r % 4 = r := Nat.mod_eq_of_lt hr
  have hcol : (4 * c.val + r) / 4 = c := by omega
  simp [column, mixColumn, mixColumns, hrow, hcol]

theorem mixColumns_isPermutation : IsPermutation mixColumns := by
  refine .of_order_four fun s => block_ext_of_columns fun c => ?_
  simp only [column_mixColumns]
  rw [mixColumn_mixColumn, mixColumn_mixColumn, mixColumnTwice_mixColumnTwice]

/-! ### A round and the whole encryption (R127, R128) -/

theorem cipherRound_isPermutation (k : Block) : IsPermutation (cipherRound · k) :=
  (addStk_isPermutation k).comp (mixColumns_isPermutation.comp (shiftRows_isPermutation.comp subBytes_isPermutation))

theorem foldl_cipherRound_isPermutation (ks : List Block) : IsPermutation fun s => ks.foldl cipherRound s := by
  induction ks with
  | nil => exact .of_inverse (g := id) (fun _ => rfl) (fun _ => rfl)
  | cons k ks ih =>
    simp only [List.foldl_cons]
    exact ih.comp (cipherRound_isPermutation k)

theorem encryptStk_isPermutation (stk : RoundKeys) : IsPermutation (encryptStk stk) :=
  (foldl_cipherRound_isPermutation _).comp (addStk_isPermutation stk[0])

/-- Settles O52: the first addition and the sixteen rounds are permutations, layer by layer. -/
theorem encryptStkIsAPermutation : Obligations.EncryptStkIsAPermutation :=
  fun stk => ⟨(encryptStk_isPermutation stk).injective, (encryptStk_isPermutation stk).surjective⟩

end Sys2Proof.Machine
end

section
/-! PROOFS. The four backends and the lanes (spec/40_round_function.md R131, R133): the backend selected changes no
result, and a command of `2N` lanes does what two of `N` lanes do. -/

namespace Sys2Proof.Machine

/-! ### The backend is read by no command (R131) -/

/-- The state with another backend selected. -/
def State.withBackend (s : State) (b : Backend) : State := { s with backend := b }

@[simp] theorem State.succeed_withBackend (s : State) (b : Backend) (n : Nat) (ph : Phase) :
    (s.withBackend b).succeed n ph = (s.succeed n ph).withBackend b := rfl

@[simp] theorem State.raise_withBackend (s : State) (b : Backend) (f : ErrCode) :
    (s.withBackend b).raise f = (s.raise f).withBackend b := rfl

@[simp] theorem State.store_withBackend (s : State) (b : Backend) (x : List Byte) :
    (s.withBackend b).store x = (s.store x).withBackend b := rfl

@[simp] theorem State.loadKey_withBackend (s : State) (b : Backend) (k : Key) :
    (s.withBackend b).loadKey k = (s.loadKey k).withBackend b := rfl

@[simp] theorem State.eraseKey_withBackend (s : State) (b : Backend) :
    (s.withBackend b).eraseKey = s.eraseKey.withBackend b := rfl

@[simp] theorem State.withBackend_latch (s : State) (b : Backend) : (s.withBackend b).latch = s.latch := rfl

/-- The backend after a command that completes without fault: the one `SELB` selects (R276), else the one before. -/
def backendAfter (b : Backend) : Instr → Backend
  | .selb c => c
  | _ => b

theorem backendAfter_of_ne_selb {i : Instr} {b : Backend} (h : ∀ c, i ≠ .selb c) : backendAfter b i = b := by
  cases i with
  | selb c => exact absurd rfl (h c)
  | _ => rfl

/-- No check reads the backend: that of `SELB` reads the strap (R276). -/
theorem checksOf_withBackend (i : Instr) (s : State) (b : Backend) : checksOf i (s.withBackend b) = checksOf i s := by
  cases i <;> rfl

/-- No effect reads the backend, and every effect but that of `SELB` keeps it (`computed_congr`). -/
theorem afterChecks_withBackend (i : Instr) (s : State) (b : Backend) :
    (s.withBackend b).afterChecks i = (s.afterChecks i).withBackend (backendAfter b i) := by
  obtain ⟨hkey, henc, hks, htag, hseal, hopen⟩ := computed_congr s (s.withBackend b) rfl rfl rfl rfl
  cases i with
  | aeadOpen =>
    simp only [State.afterChecks, hopen, backendAfter]
    cases s.openResult <;> rfl
  | selb c => rfl
  | _ => simp [State.afterChecks, backendAfter, hkey, henc, hks, htag, hseal]

/-- A command runs alike whatever backend is selected: the two end states differ in `STATUS.BACKEND` alone. -/
theorem exec_withBackend {i : Instr} {s t : State} (h : exec i s = .next t) (b : Backend) :
    ∃ c, exec i (s.withBackend b) = .next (t.withBackend c) ∧ ((∀ c, i ≠ .selb c) → c = b) := by
  rw [exec_eq_runChecked] at h ⊢
  rw [checksOf_withBackend, afterChecks_withBackend]
  rcases runChecked_next _ _ _ _ h with ⟨f, hf, rfl⟩ | ⟨hnone, rfl⟩
  · exact ⟨b, by simp only [State.runChecked, hf, State.raise_withBackend], fun _ => rfl⟩
  · exact ⟨backendAfter b i, by simp only [State.runChecked, hnone], backendAfter_of_ne_selb⟩

/-- Settles O29: neither the checks nor the effect read the backend (`exec_withBackend`). -/
theorem resultsDoNotDependOnTheBackend : Obligations.ResultsDoNotDependOnTheBackend := by
  intro i s t b h
  obtain ⟨c, hexec, hc⟩ := exec_withBackend h b
  exact ⟨t.withBackend c, hexec, rfl, hc⟩

/-! ### A block-level command where no fault applies (R181) -/

theorem outOfBounds_of_regionsInside {i : Instr} {s : State} (h : s.regionsInside i) :
    outOfBounds s.cfg.dmemSize i s.latch = false := by
  obtain ⟨hwritten, hread⟩ := h
  refine (outOfBounds_false _ _ _).2 ⟨(inBounds_iff _ _ _).2 hwritten, fun r hr => ?_⟩
  exact (inBounds_iff _ _ _).2 (hread r hr)

theorem exec_of_tbcChecks_pass {i : Instr} {s : State} (hi : checksOf i s = tbcChecks i s) (hready : s.ready)
    (hin : s.regionsInside i) : exec i s = .next (s.afterChecks i) := by
  obtain ⟨hfatal, hkey⟩ := hready
  have hpass : firstFault (checksOf i s) = none := by
    simp [hi, tbcChecks, hfatal, hkey, outOfBounds_of_regionsInside hin]
  simp only [exec_eq_runChecked, State.runChecked, hpass]

/-- `TagLanes i n`: the command `i` is `TBCTAG` of `n` lanes (R189). -/
inductive TagLanes : Instr → Nat → Prop where
  | x1 : TagLanes .tbcTagX1 1
  | x2 : TagLanes .tbcTagX2 2
  | x4 : TagLanes .tbcTagX4 4

/-- `KsLanes i n`: the command `i` is `TBCKS` of `n` lanes (R186). -/
inductive KsLanes : Instr → Nat → Prop where
  | x1 : KsLanes .tbcKsX1 1
  | x2 : KsLanes .tbcKsX2 2
  | x4 : KsLanes .tbcKsX4 4

section
variable {i : Instr} {n : Nat} {s : State}

/-- The row of `TBCTAG` in the table of R70. -/
theorem TagLanes.regions (h : TagLanes i n) (d : Descriptors) :
    regionWritten i d = laneRegion d.dstAddr 1 ∧
      regionsRead i d = [laneRegion d.twkAddr n, laneRegion d.srcAddr n, laneRegion d.dstAddr 1] := by
  cases h <;> exact ⟨rfl, rfl⟩

theorem TagLanes.regionsInside_iff (h : TagLanes i n) :
    s.regionsInside i ↔ s.regionInside (laneRegion s.latch.dstAddr 1) ∧
      s.regionInside (laneRegion s.latch.twkAddr n) ∧ s.regionInside (laneRegion s.latch.srcAddr n) := by
  obtain ⟨hwritten, hread⟩ := h.regions s.latch
  simp only [State.regionsInside, hwritten, hread, List.mem_cons, List.not_mem_nil, or_false,
    forall_eq_or_imp, forall_eq]
  exact ⟨fun ⟨hdst, htwk, hsrc, _⟩ => ⟨hdst, htwk, hsrc⟩, fun ⟨hdst, htwk, hsrc⟩ => ⟨hdst, htwk, hsrc, hdst⟩⟩

theorem TagLanes.exec_eq (h : TagLanes i n) (hready : s.ready) (hin : s.regionsInside i) :
    exec i s = .next ((s.store (s.accumulatedLanes n).toList).succeed 16 .idle) := by
  cases h <;> exact exec_of_tbcChecks_pass rfl hready hin

/-- The row of `TBCKS` in the table of R70. -/
theorem KsLanes.regions (h : KsLanes i n) (d : Descriptors) :
    regionWritten i d = laneRegion d.dstAddr n ∧ regionsRead i d = [laneRegion d.twkAddr n, laneRegion d.srcAddr 1] := by
  cases h <;> exact ⟨rfl, rfl⟩

theorem KsLanes.regionsInside_iff (h : KsLanes i n) :
    s.regionsInside i ↔ s.regionInside (laneRegion s.latch.dstAddr n) ∧
      s.regionInside (laneRegion s.latch.twkAddr n) ∧ s.regionInside (laneRegion s.latch.srcAddr 1) := by
  obtain ⟨hwritten, hread⟩ := h.regions s.latch
  simp only [State.regionsInside, hwritten, hread, List.mem_cons, List.not_mem_nil, or_false,
    forall_eq_or_imp, forall_eq]

theorem KsLanes.exec_eq (h : KsLanes i n) (hready : s.ready) (hin : s.regionsInside i) :
    exec i s = .next ((s.store (s.keystreamLanes n)).succeed (16 * n) .idle) := by
  cases h <;> exact exec_of_tbcChecks_pass rfl hready hin

end

/-! ### Two stores at `DST_ADDR` -/

/-- Storing two strings one behind the other is storing them joined. -/
theorem Memory.write_append (x y : List Byte) : ∀ (m : Memory) (a : Nat),
    m.write a (x ++ y) = (m.write a x).write (a + x.length) y := by
  induction x with
  | nil => intro m a; rfl
  | cons b x ih =>
    intro m a
    rw [List.cons_append, Memory.write_cons, Memory.write_cons, ih, List.length_cons, Nat.add_right_comm, Nat.add_assoc]

/-- The second of two stores of one length at one place is all that shows. -/
theorem Memory.get_write_write {m : Memory} (hm : m.wf = true) (a : Nat) {x y : List Byte} (hlen : x.length = y.length)
    (b : Nat) : ((m.write a x).write a y).get b = (m.write a y).get b := by
  by_cases hb : a ≤ b ∧ b < a + y.length
  · obtain ⟨k, rfl⟩ := Nat.exists_eq_add_of_le hb.1
    have hk : k < y.length := by omega
    rw [Memory.get_write_inside y _ a k hk (Memory.wf_write x m a hm), Memory.get_write_inside y m a k hk hm]
  · rw [Memory.get_write_outside y _ a b hb, Memory.get_write_outside y m a b hb,
      Memory.get_write_outside x m a b (hlen ▸ hb)]

theorem Memory.readBlock_write_same {m : Memory} (hm : m.wf = true) (a : Nat) (x : Block) :
    (m.write a x.toList).readBlock a = x := by
  apply Vector.ext
  intro k hk
  rw [Memory.readBlock, Memory.readVec_getElem, Memory.get_write_inside x.toList m a k (by simpa using hk) hm]
  simp

/-- A store that fits in the region `q` leaves alone a region apart from it. -/
theorem AgreeOn.write_apart {m : Memory} {x : List Byte} {q r : Region} (h : q.apart r) (hlen : x.length ≤ q.len) :
    AgreeOn m (m.write q.addr x) r :=
  fun a ha => (Memory.get_write_outside x m q.addr a (by
    obtain ⟨hlo, hhi⟩ := ha
    rcases h with h | h | h | h <;> omega)).symm

/-! ### The lanes of the second half -/

/-- The second half of `2n` lanes inside `DMEM` begins `16 * n` bytes on, without wrapping around. -/
theorem laneRegion_halves {s : State} (hinv : s.Inv) {w : Word} {n : Nat} (hn : 0 < n)
    (h : s.regionInside (laneRegion w (n + n))) :
    s.regionInside (laneRegion w n) ∧ (w + BitVec.ofNat 32 (16 * n)).toNat = w.toNat + 16 * n ∧
      s.regionInside (laneRegion (w + BitVec.ofNat 32 (16 * n)) n) := by
  have hsize := dmemSize_le hinv
  simp only [State.regionInside, laneRegion] at h ⊢
  have haddr : (w + BitVec.ofNat 32 (16 * n)).toNat = w.toNat + 16 * n := by
    rw [BitVec.toNat_add, BitVec.toNat_ofNat, Nat.add_mod_mod]
    exact Nat.mod_eq_of_lt (by omega)
  rw [haddr]
  omega

/-- Lane `j` from the advanced address is lane `n + j`, where the memory still holds the bytes of the lanes. -/
theorem AgreeOn.readLane_advanced {m m' : Memory} {w w' : Word} {n j : Nat} (h : AgreeOn m m' (laneRegion w (n + n)))
    (hw : w'.toNat = w.toNat + 16 * n) (hj : j < n) :
    m'.readBlock (w'.toNat + 16 * j) = m.readBlock (w.toNat + 16 * (n + j)) := by
  rw [h.readLane (Nat.add_lt_add_left hj n), hw, Nat.mul_add, Nat.add_assoc]

/-- The state in which the second of two commands runs: the first has stored `x` and completed with `OUT_LEN = len`, and
the latch holds `d`. -/
def State.resumed (s : State) (x : List Byte) (len : Nat) (d : Descriptors) : State :=
  { (s.store x).succeed len .idle with latch := d }

section
variable {s : State} {x : List Byte} {d : Descriptors} {n j : Nat}

theorem laneTweak_resumed (len : Nat)
    (h : AgreeOn s.dmem (s.dmem.write s.latch.dstAddr.toNat x) (laneRegion s.latch.twkAddr (n + n)))
    (hd : d.twkAddr.toNat = s.latch.twkAddr.toNat + 16 * n) (hj : j < n) :
    (s.resumed x len d).laneTweak j = s.laneTweak (n + j) := h.readLane_advanced hd hj

theorem laneBlock_resumed (len : Nat)
    (h : AgreeOn s.dmem (s.dmem.write s.latch.dstAddr.toNat x) (laneRegion s.latch.srcAddr (n + n)))
    (hd : d.srcAddr.toNat = s.latch.srcAddr.toNat + 16 * n) (hj : j < n) :
    (s.resumed x len d).laneBlock j = s.laneBlock (n + j) := h.readLane_advanced hd hj

end

/-- `TWK_ADDR` and `SRC_ADDR` advanced past `n` lanes. -/
def Descriptors.advanceTag (d : Descriptors) (n : Nat) : Descriptors :=
  { d with twkAddr := d.twkAddr + BitVec.ofNat 32 (16 * n), srcAddr := d.srcAddr + BitVec.ofNat 32 (16 * n) }

/-- `TWK_ADDR` and `DST_ADDR` advanced past `n` lanes. -/
def Descriptors.advanceKs (d : Descriptors) (n : Nat) : Descriptors :=
  { d with twkAddr := d.twkAddr + BitVec.ofNat 32 (16 * n), dstAddr := d.dstAddr + BitVec.ofNat 32 (16 * n) }

/-! ### `TBCTAG` in two halves (R133, R189) -/

/-- The accumulator goes on from that of the first lanes. -/
theorem accumulatedLanes_add (s : State) (n k : Nat) :
    s.accumulatedLanes (n + k) =
      (List.range k).foldl (fun a j => xorBlock a (tbcE s.kl (s.laneTweak (n + j)) (s.laneBlock (n + j))))
        (s.accumulatedLanes n) := by
  simp only [State.accumulatedLanes, List.range_add, List.foldl_append, List.foldl_map]

/-- The second command finds the accumulator of the first at `DST_ADDR`, and its lanes are the second half. -/
theorem accumulatedLanes_resumed {s : State} {n : Nat} (hinv : s.Inv) (hn : 0 < n)
    (htwk : s.regionInside (laneRegion s.latch.twkAddr (n + n)))
    (hsrc : s.regionInside (laneRegion s.latch.srcAddr (n + n)))
    (htwkApart : (laneRegion s.latch.dstAddr 1).apart (laneRegion s.latch.twkAddr (n + n)))
    (hsrcApart : (laneRegion s.latch.dstAddr 1).apart (laneRegion s.latch.srcAddr (n + n))) :
    (s.resumed (s.accumulatedLanes n).toList 16 (s.latch.advanceTag n)).accumulatedLanes n =
      s.accumulatedLanes (n + n) := by
  obtain ⟨-, htwkAddr, -⟩ := laneRegion_halves hinv hn htwk
  obtain ⟨-, hsrcAddr, -⟩ := laneRegion_halves hinv hn hsrc
  have hlen : (s.accumulatedLanes n).toList.length ≤ (laneRegion s.latch.dstAddr 1).len := by simp [laneRegion]
  have hstart : (s.resumed (s.accumulatedLanes n).toList 16 (s.latch.advanceTag n)).dmem.readBlock
      s.latch.dstAddr.toNat = s.accumulatedLanes n :=
    Memory.readBlock_write_same hinv.canonical _ _
  rw [accumulatedLanes_add]
  refine List.foldl_rel (r := Eq) hstart fun j hj a b hab => ?_
  have hj := List.mem_range.1 hj
  rw [hab, laneTweak_resumed 16 (.write_apart htwkApart hlen) htwkAddr hj,
    laneBlock_resumed 16 (.write_apart hsrcApart hlen) hsrcAddr hj]
  rfl

/-- `TBCTAG` of `2n` lanes leaves the memory that two of `n` lanes leave. -/
theorem TagLanes.split {i j : Instr} {n : Nat} (hi : TagLanes i (n + n)) (hj : TagLanes j n) (hn : 0 < n) {s : State}
    (hinv : s.Inv) (hready : s.ready) (hin : s.regionsInside i)
    (htwkApart : (laneRegion s.latch.dstAddr 1).apart (laneRegion s.latch.twkAddr (n + n)))
    (hsrcApart : (laneRegion s.latch.dstAddr 1).apart (laneRegion s.latch.srcAddr (n + n))) :
    ∃ t u v, exec i s = .next t ∧ exec j s = .next u ∧
      exec j { u with latch := s.latch.advanceTag n } = .next v ∧
      t.err = .ok ∧ v.err = .ok ∧ ∀ a, t.dmem.get a = v.dmem.get a := by
  obtain ⟨hdst, htwk, hsrc⟩ := hi.regionsInside_iff.1 hin
  obtain ⟨htwkFirst, -, htwkSecond⟩ := laneRegion_halves hinv hn htwk
  obtain ⟨hsrcFirst, -, hsrcSecond⟩ := laneRegion_halves hinv hn hsrc
  have hfirst := hj.exec_eq hready (hj.regionsInside_iff.2 ⟨hdst, htwkFirst, hsrcFirst⟩)
  have hsecond := hj.exec_eq (s := s.resumed (s.accumulatedLanes n).toList 16 (s.latch.advanceTag n)) hready
    (hj.regionsInside_iff.2 ⟨hdst, htwkSecond, hsrcSecond⟩)
  refine ⟨_, _, _, hi.exec_eq hready hin, hfirst, hsecond, rfl, rfl, fun a => ?_⟩
  rw [accumulatedLanes_resumed hinv hn htwk hsrc htwkApart hsrcApart]
  exact (Memory.get_write_write hinv.canonical _ (by simp) a).symm

/-- Settles O20: both parts are `TagLanes.split`. -/
theorem tagLanesEqualSequentialAccumulation : Obligations.TagLanesEqualSequentialAccumulation :=
  fun _ hinv hready =>
    ⟨TagLanes.x2.split .x1 Nat.one_pos hinv hready, TagLanes.x4.split .x2 Nat.two_pos hinv hready⟩

/-! ### `TBCKS` in two halves (R133, R186) -/

theorem keystreamLanes_add (s : State) (n k : Nat) :
    s.keystreamLanes (n + k) =
      s.keystreamLanes n ++
        (List.range k).flatMap fun j => (tbcE s.kl (s.laneTweak (n + j)) (s.laneBlock 0)).toList := by
  simp only [State.keystreamLanes, List.range_add, List.flatMap_append, List.flatMap_map]

/-- The second command encrypts the same block under the tweaks of the second half. -/
theorem keystreamLanes_resumed {s : State} {n : Nat} (hinv : s.Inv) (hn : 0 < n)
    (htwk : s.regionInside (laneRegion s.latch.twkAddr (n + n)))
    (htwkApart : (laneRegion s.latch.dstAddr (n + n)).apart (laneRegion s.latch.twkAddr (n + n)))
    (hsrcApart : (laneRegion s.latch.dstAddr (n + n)).apart (laneRegion s.latch.srcAddr 1)) :
    s.keystreamLanes n ++ (s.resumed (s.keystreamLanes n) (16 * n) (s.latch.advanceKs n)).keystreamLanes n =
      s.keystreamLanes (n + n) := by
  obtain ⟨-, htwkAddr, -⟩ := laneRegion_halves hinv hn htwk
  have hlen : (s.keystreamLanes n).length ≤ (laneRegion s.latch.dstAddr (n + n)).len := by
    simp only [keystreamLanes_length, laneRegion]
    omega
  have hblock : (s.resumed (s.keystreamLanes n) (16 * n) (s.latch.advanceKs n)).laneBlock 0 = s.laneBlock 0 :=
    ((AgreeOn.write_apart hsrcApart hlen).readLane Nat.one_pos).symm
  rw [keystreamLanes_add]
  refine congrArg (s.keystreamLanes n ++ ·) ?_
  rw [State.keystreamLanes, List.flatMap_def, List.flatMap_def]
  refine congrArg List.flatten (List.map_congr_left fun j hj => ?_)
  rw [hblock, laneTweak_resumed _ (.write_apart htwkApart hlen) htwkAddr (List.mem_range.1 hj)]
  rfl

/-- `TBCKS` of `2n` lanes leaves the memory that two of `n` lanes leave. -/
theorem KsLanes.split {i j : Instr} {n : Nat} (hi : KsLanes i (n + n)) (hj : KsLanes j n) (hn : 0 < n) {s : State}
    (hinv : s.Inv) (hready : s.ready) (hin : s.regionsInside i)
    (htwkApart : (laneRegion s.latch.dstAddr (n + n)).apart (laneRegion s.latch.twkAddr (n + n)))
    (hsrcApart : (laneRegion s.latch.dstAddr (n + n)).apart (laneRegion s.latch.srcAddr 1)) :
    ∃ t u v, exec i s = .next t ∧ exec j s = .next u ∧
      exec j { u with latch := s.latch.advanceKs n } = .next v ∧
      t.err = .ok ∧ v.err = .ok ∧ ∀ a, t.dmem.get a = v.dmem.get a := by
  obtain ⟨hdst, htwk, hsrc⟩ := hi.regionsInside_iff.1 hin
  obtain ⟨hdstFirst, hdstAddr, hdstSecond⟩ := laneRegion_halves hinv hn hdst
  obtain ⟨htwkFirst, -, htwkSecond⟩ := laneRegion_halves hinv hn htwk
  have hfirst := hj.exec_eq hready (hj.regionsInside_iff.2 ⟨hdstFirst, htwkFirst, hsrc⟩)
  have hsecond := hj.exec_eq (s := s.resumed (s.keystreamLanes n) (16 * n) (s.latch.advanceKs n)) hready
    (hj.regionsInside_iff.2 ⟨hdstSecond, htwkSecond, hsrc⟩)
  refine ⟨_, _, _, hi.exec_eq hready hin, hfirst, hsecond, rfl, rfl, fun a => ?_⟩
  rw [State.succeed_dmem, State.store_dmem, ← keystreamLanes_resumed hinv hn htwk htwkApart hsrcApart,
    Memory.write_append, keystreamLanes_length, ← hdstAddr]
  rfl

/-- Settles O21: both parts are `KsLanes.split`. -/
theorem keystreamLanesEqualSequentialCalls : Obligations.KeystreamLanesEqualSequentialCalls :=
  fun _ hinv hready =>
    ⟨KsLanes.x2.split .x1 Nat.one_pos hinv hready, KsLanes.x4.split .x2 Nat.two_pos hinv hready⟩

end Sys2Proof.Machine
end

section
/-! PROOFS. The subtweakkey derivation (spec/41_subtweakkey.md): the byte permutation `h`, the byte functions `LFSR2` and
`LFSR3`, and the round constants. -/

namespace Sys2Proof.Machine

/-! ### `LFSR2` and `LFSR3` on one byte, bit by bit (R152, R153) -/

theorem lfsr2Byte_getElem_zero (x : Byte) : (lfsr2Byte x)[0] = (x[7] ^^ x[5]) := by
  simp [lfsr2Byte]

theorem lfsr2Byte_getElem_succ (x : Byte) (i : Nat) (h : i + 1 < 8) : (lfsr2Byte x)[i + 1] = x[i] := by
  simp [lfsr2Byte]

theorem lfsr3Byte_getElem_seven (x : Byte) : (lfsr3Byte x)[7] = (x[0] ^^ x[6]) := by
  simp [lfsr3Byte]

theorem lfsr3Byte_getElem_of_lt (x : Byte) (i : Nat) (h : i < 7) : (lfsr3Byte x)[i] = x[i + 1] := by
  have htop : (0x80#8)[i] = false := by
    revert i
    decide
  have hbit : x.getLsbD (i + 1) = x[i + 1] := BitVec.getLsbD_eq_getElem (by omega)
  simp [lfsr3Byte, htop, hbit, Nat.add_comm]

/-- `LFSR3` gives bit 7 back as `u_0 ^ u_6`, where `LFSR2` made `u_0 = x_7 ^ x_5` and `u_6 = x_5`: the `x_5` cancels. -/
theorem lfsr3Byte_lfsr2Byte (x : Byte) : lfsr3Byte (lfsr2Byte x) = x := by
  apply BitVec.eq_of_getElem_eq
  intro i hi
  obtain hlt | rfl : i < 7 ∨ i = 7 := by omega
  · rw [lfsr3Byte_getElem_of_lt _ i hlt, lfsr2Byte_getElem_succ]
  · rw [lfsr3Byte_getElem_seven, lfsr2Byte_getElem_zero, lfsr2Byte_getElem_succ x 5, Bool.xor_assoc, Bool.xor_self,
      Bool.xor_false]

theorem lfsr2Byte_lfsr3Byte (x : Byte) : lfsr2Byte (lfsr3Byte x) = x := by
  apply BitVec.eq_of_getElem_eq
  intro i hi
  cases i with
  | zero =>
    rw [lfsr2Byte_getElem_zero, lfsr3Byte_getElem_seven, lfsr3Byte_getElem_of_lt x 5 (by decide),
      Bool.xor_assoc, Bool.xor_self, Bool.xor_false]
  | succ i => rw [lfsr2Byte_getElem_succ, lfsr3Byte_getElem_of_lt x i (by omega)]

theorem lfsr2Byte_xor (a b : Byte) : lfsr2Byte (a ^^^ b) = lfsr2Byte a ^^^ lfsr2Byte b := by
  apply BitVec.eq_of_getElem_eq
  intro i hi
  cases i with
  | zero => simp only [lfsr2Byte_getElem_zero, BitVec.getElem_xor, Bool.xor_assoc, Bool.xor_left_comm]
  | succ i => simp only [lfsr2Byte_getElem_succ, BitVec.getElem_xor]

theorem lfsr3Byte_xor (a b : Byte) : lfsr3Byte (a ^^^ b) = lfsr3Byte a ^^^ lfsr3Byte b := by
  apply BitVec.eq_of_getElem_eq
  intro i hi
  obtain hlt | rfl : i < 7 ∨ i = 7 := by omega
  · simp only [lfsr3Byte_getElem_of_lt _ i hlt, BitVec.getElem_xor]
  · simp only [lfsr3Byte_getElem_seven, BitVec.getElem_xor, Bool.xor_assoc, Bool.xor_left_comm]

/-! ### On a block: a function of each byte alone (R154) -/

theorem lfsr2_eq_map (t : Block) : lfsr2 t = t.map lfsr2Byte := by
  apply Vector.ext
  intro k hk
  simp [lfsr2]

theorem lfsr3_eq_map (t : Block) : lfsr3 t = t.map lfsr3Byte := by
  apply Vector.ext
  intro k hk
  simp [lfsr3]

/-- What undoes a function on every byte undoes it on the block. -/
theorem map_map_cancel {f g : Byte → Byte} (h : ∀ x, g (f x) = x) (t : Block) : (t.map f).map g = t := by
  apply Vector.ext
  intro k hk
  simp only [Vector.getElem_map, h]

theorem lfsr3_lfsr2 (t : Block) : lfsr3 (lfsr2 t) = t := by
  rw [lfsr3_eq_map, lfsr2_eq_map, map_map_cancel lfsr3Byte_lfsr2Byte]

theorem lfsr2_lfsr3 (t : Block) : lfsr2 (lfsr3 t) = t := by
  rw [lfsr3_eq_map, lfsr2_eq_map, map_map_cancel lfsr2Byte_lfsr3Byte]

/-- A function that is linear on bytes is linear on blocks. -/
theorem map_xorBlock {f : Byte → Byte} (hf : ∀ a b, f (a ^^^ b) = f a ^^^ f b) (a b : Block) :
    (xorBlock a b).map f = xorBlock (a.map f) (b.map f) := by
  apply Vector.ext
  intro k hk
  simp only [Vector.getElem_map, xorBlock_getElem, hf]

theorem lfsr2_xorBlock (a b : Block) : lfsr2 (xorBlock a b) = xorBlock (lfsr2 a) (lfsr2 b) := by
  simp only [lfsr2_eq_map, map_xorBlock lfsr2Byte_xor]

theorem lfsr3_xorBlock (a b : Block) : lfsr3 (xorBlock a b) = xorBlock (lfsr3 a) (lfsr3 b) := by
  simp only [lfsr3_eq_map, map_xorBlock lfsr3Byte_xor]

/-! ### The byte permutation `h` and the tweak lane (R151, R160) -/

theorem hPerm_getElem (t : Block) (k : Nat) (h : k < 16) : (hPerm t)[k] = t[hIndex[k]] := Vector.getElem_ofFn h

/-- `h` moves whole bytes, so it commutes with whatever acts inside them. -/
theorem hPerm_map (f : Byte → Byte) (t : Block) : hPerm (t.map f) = (hPerm t).map f := by
  apply Vector.ext
  intro k hk
  simp only [hPerm_getElem, Vector.getElem_map, Fin.getElem_fin]

theorem hPerm_lfsr2 (t : Block) : hPerm (lfsr2 t) = lfsr2 (hPerm t) := by
  simp only [lfsr2_eq_map, hPerm_map]

theorem hPerm_lfsr3 (t : Block) : hPerm (lfsr3 t) = lfsr3 (hPerm t) := by
  simp only [lfsr3_eq_map, hPerm_map]

/-- The place in the tweak of the byte that stands at place `k` after `i` advances (`tweakLane_getElem`). -/
def tweakSource : Nat → Fin 16 → Fin 16
  | 0, k => k
  | i + 1, k => tweakSource i hIndex[k]

theorem tweakLane_getElem (t : Block) (i : Nat) (k : Fin 16) : (tweakLane t i)[k] = t[tweakSource i k] := by
  induction i generalizing k with
  | zero => rfl
  | succ i ih =>
    calc (hPerm (tweakLane t i))[k]
        = (tweakLane t i)[hIndex[k]] := hPerm_getElem _ k k.isLt
      _ = t[tweakSource i hIndex[k]] := ih hIndex[k]

/-- Every cycle of `H` has a length that divides 8. -/
theorem tweakSource_eight (k : Fin 16) : tweakSource 8 k = k := by
  revert k
  decide

theorem tweakLane_eight (t : Block) : tweakLane t 8 = t := by
  apply Vector.ext
  intro k hk
  have hget := tweakLane_getElem t 8 ⟨k, hk⟩
  simpa only [tweakSource_eight, Fin.getElem_fin] using hget

/-- The tweak lane repeats every 8 advances. -/
theorem tweakLane_add_eight (t : Block) (i : Nat) : tweakLane t (i + 8) = tweakLane t i := by
  induction i with
  | zero => exact tweakLane_eight t
  | succ i ih => exact congrArg hPerm ih

theorem tweakLane_sixteen (t : Block) : tweakLane t 16 = t := by
  rw [tweakLane_add_eight t 8, tweakLane_eight]

/-! ### The round constants (R155) -/

theorem rcon_succ (i : Fin 16) : rcon[i.val + 1] = mul2 rcon[i.val] := by
  revert i
  decide

/-- Settles O51: the laws of `LFSR2` and `LFSR3` come from their bits, those of the tweak lane from the cycles of `H`. -/
theorem derivationFunctionsFollowTheirLaws : Obligations.DerivationFunctionsFollowTheirLaws :=
  ⟨fun t => ⟨lfsr3_lfsr2 t, lfsr2_lfsr3 t, hPerm_lfsr2 t, hPerm_lfsr3 t, tweakLane_eight t,
      tweakLane_sixteen t⟩,
    fun a b => ⟨lfsr2_xorBlock a b, lfsr3_xorBlock a b⟩, rcon_succ, rfl⟩

end Sys2Proof.Machine
end

section
/-! PROOFS. The block-level commands (spec/42_tbc_commands.md): what each of the seven leaves where its checks pass, and
the fault it takes where one fails. -/

namespace Sys2Proof.Machine

/-! ### The lanes one after the other (R186, R189) -/

theorem laneTweak_zero (s : State) : s.laneTweak 0 = s.dmem.readBlock s.latch.twkAddr.toNat := rfl

theorem laneBlock_zero (s : State) : s.laneBlock 0 = s.dmem.readBlock s.latch.srcAddr.toNat := rfl

theorem keystreamLanes_zero (s : State) : s.keystreamLanes 0 = [] := rfl

theorem keystreamLanes_succ (s : State) (n : Nat) :
    s.keystreamLanes (n + 1) = s.keystreamLanes n ++ (tbcE s.kl (s.laneTweak n) (s.laneBlock 0)).toList := by
  rw [keystreamLanes_add]
  simp

theorem accumulatedLanes_zero (s : State) : s.accumulatedLanes 0 = s.dmem.readBlock s.latch.dstAddr.toNat := rfl

theorem accumulatedLanes_succ (s : State) (n : Nat) :
    s.accumulatedLanes (n + 1) = xorBlock (s.accumulatedLanes n) (tbcE s.kl (s.laneTweak n) (s.laneBlock n)) :=
  accumulatedLanes_add s n 1

/-! ### The effects (R183, R186, R189) -/

/-- Settles O16: the checks of `TBCENC` pass (`exec_of_tbcChecks_pass`), and its one block is that of lane 0. -/
theorem tbcEncEncryptsOneBlock : Obligations.TbcEncEncryptsOneBlock := by
  intro s hready hin
  have hexec : exec .tbcEnc s = .next ((s.store s.encryptedBlock.toList).succeed 16 .idle) :=
    exec_of_tbcChecks_pass rfl hready hin
  rw [hexec, succeed_eq_afterSuccess, State.store, State.encryptedBlock, laneTweak_zero, laneBlock_zero]

/-- Where no fault applies, `TBCKS` of `n` lanes ends in the completion written out, with its lanes stored. -/
theorem KsLanes.exec_eq_afterSuccess {i : Instr} {n : Nat} (h : KsLanes i n) {s : State} (hready : s.ready)
    (hin : s.regionsInside i) :
    exec i s = .next (State.afterSuccess
      { s with dmem := s.dmem.write s.latch.dstAddr.toNat (s.keystreamLanes n) } (16 * n) .idle) := by
  rw [h.exec_eq hready hin, succeed_eq_afterSuccess, State.store]

/-- Settles O17: the bytes stored are the lanes, one `keystreamLanes_succ` per lane. -/
theorem tbcKsWritesOneBlockPerTweak : Obligations.TbcKsWritesOneBlockPerTweak := by
  intro s hready p lane out
  have hone : s.keystreamLanes 1 = lane 0 := by
    rw [keystreamLanes_succ, keystreamLanes_zero, List.nil_append]
    rfl
  have htwo : s.keystreamLanes 2 = lane 0 ++ lane 1 := by
    rw [keystreamLanes_succ, hone]
    rfl
  have hfour : s.keystreamLanes 4 = lane 0 ++ lane 1 ++ lane 2 ++ lane 3 := by
    rw [keystreamLanes_succ, keystreamLanes_succ, htwo]
    rfl
  refine ⟨fun hin => ?_, fun hin => ?_, fun hin => ?_⟩
  · rw [KsLanes.x1.exec_eq_afterSuccess hready hin, hone]
  · rw [KsLanes.x2.exec_eq_afterSuccess hready hin, htwo]
  · rw [KsLanes.x4.exec_eq_afterSuccess hready hin, hfour]

/-- Where no fault applies, `TBCTAG` of `n` lanes ends in the completion written out, with its accumulator stored. -/
theorem TagLanes.exec_eq_afterSuccess {i : Instr} {n : Nat} (h : TagLanes i n) {s : State} (hready : s.ready)
    (hin : s.regionsInside i) :
    exec i s = .next (State.afterSuccess
      { s with dmem := s.dmem.write s.latch.dstAddr.toNat (s.accumulatedLanes n).toList } 16 .idle) := by
  rw [h.exec_eq hready hin, succeed_eq_afterSuccess, State.store]

/-- Settles O18: the engine adds lane by lane into the accumulator (`accumulatedLanes_succ`), and by `xorBlock_assoc` the
lanes may be added up first. -/
theorem tbcTagAddsEveryLane : Obligations.TbcTagAddsEveryLane := by
  intro s hready a lane out
  have hone : s.accumulatedLanes 1 = xorBlock a (lane 0) := by
    rw [accumulatedLanes_succ, accumulatedLanes_zero]
    rfl
  have htwo : s.accumulatedLanes 2 = xorBlock a (xorBlock (lane 0) (lane 1)) := by
    rw [accumulatedLanes_succ, hone, xorBlock_assoc]
    rfl
  have hfour : s.accumulatedLanes 4 =
      xorBlock a (xorBlock (xorBlock (lane 0) (lane 1)) (xorBlock (lane 2) (lane 3))) := by
    rw [accumulatedLanes_succ, accumulatedLanes_succ, htwo, xorBlock_assoc, xorBlock_assoc]
    rfl
  refine ⟨fun hin => ?_, fun hin => ?_, fun hin => ?_⟩
  · rw [TagLanes.x1.exec_eq_afterSuccess hready hin, hone]
  · rw [TagLanes.x2.exec_eq_afterSuccess hready hin, htwo]
  · rw [TagLanes.x4.exec_eq_afterSuccess hready hin, hfour]

/-! ### The faults (R181) -/

/-- The bounds check fails exactly where some region of the command's row is not inside `DMEM` (R66, R70). -/
theorem outOfBounds_iff_not_regionsInside {i : Instr} {s : State} :
    outOfBounds s.cfg.dmemSize i s.latch = true ↔ ¬ s.regionsInside i := by
  rw [← Bool.not_eq_false, outOfBounds_false]
  simp only [Region.inBounds, inBounds_iff]

/-- A command whose checks raise a fault ends in the fault entry written out (R310). -/
theorem exec_eq_afterFault {i : Instr} {s : State} {f : ErrCode} (h : firstFault (checksOf i s) = some f) :
    exec i s = .next (s.afterFault f f.restingPhase f.isFatal) := by
  rw [← raise_eq_afterFault s f (checksOf_ne_ok i s f h)]
  simp only [exec_eq_runChecked, State.runChecked, h]

/-- The seven block-level commands have one list of checks, each on its own regions. -/
theorem checksOf_eq_tbcChecks {i : Instr} (s : State)
    (h : i ∈ [.tbcEnc, .tbcKsX1, .tbcKsX2, .tbcKsX4, .tbcTagX1, .tbcTagX2, .tbcTagX4]) :
    checksOf i s = tbcChecks i s := by
  simp only [List.mem_cons, List.not_mem_nil, or_false] at h
  rcases h with rfl | rfl | rfl | rfl | rfl | rfl | rfl <;> rfl

/-- Settles O19: in each clause `tbcChecks` raises its code first, and `exec_eq_afterFault` gives the end state. -/
theorem tbcCommandsTakeTheirFirstFault : Obligations.TbcCommandsTakeTheirFirstFault := by
  intro i s hi
  have hchecks := checksOf_eq_tbcChecks s hi
  refine ⟨fun hfatal => ?_, fun hfatal hkey => ?_, fun ⟨hfatal, hkey⟩ hout => ?_⟩
  · exact exec_eq_afterFault (f := .fatal) (by simp [hchecks, tbcChecks, hfatal])
  · exact exec_eq_afterFault (f := .noKey) (by simp [hchecks, tbcChecks, hfatal, hkey])
  · have hbounds := outOfBounds_iff_not_regionsInside.2 hout
    exact exec_eq_afterFault (f := .bounds) (by simp [hchecks, tbcChecks, hfatal, hkey, hbounds])

end Sys2Proof.Machine
end

section
/-! PROOFS. The two passes of the mode (spec/43_aead_passes.md): the tweaks of its roles (R202 to R205), the streams of the
authentication pass (R208, R210), the keystream pass (R214, R215), and opening what was sealed (R216 to R218). -/

namespace Sys2Proof.Machine

/-! ### `BE64` and the tweaks, byte by byte (R14, R203 to R205) -/

theorem be64_getElem (n k : Nat) (h : k < 8) : (be64 n)[k] = BitVec.ofNat 8 (n >>> (8 * (7 - k))) :=
  Vector.getElem_ofFn h

/-- Bit `b` of a number stands in byte `7 - b / 8` of its `BE64`, at place `b % 8`. -/
theorem be64_getLsbD (n : Nat) {b : Nat} (h : b < 64) : (be64 n)[7 - b / 8].getLsbD (b % 8) = n.testBit b := by
  have hplace : 8 * (7 - (7 - b / 8)) + b % 8 = b := by omega
  rw [be64_getElem, BitVec.getLsbD_ofNat, Nat.testBit_shiftRight, hplace]
  simp [Nat.mod_lt]

theorem be64_injective {i j : Nat} (hi : i < 2 ^ 64) (hj : j < 2 ^ 64) (h : be64 i = be64 j) : i = j := by
  refine Nat.eq_of_testBit_eq fun b => ?_
  by_cases hb : b < 64
  · rw [← be64_getLsbD i hb, ← be64_getLsbD j hb, h]
  · have hle : 2 ^ 64 ≤ 2 ^ b := Nat.pow_le_pow_right Nat.two_pos (Nat.le_of_not_lt hb)
    rw [Nat.testBit_lt_two_pow (Nat.lt_of_lt_of_le hi hle), Nat.testBit_lt_two_pow (Nat.lt_of_lt_of_le hj hle)]

theorem tagTweak_getElem_zero (p : BitVec 4) (i : Nat) : (tagTweak p i)[0] = prefixByte p := by
  simp [tagTweak]

theorem tagTweak_getElem_tail (p : BitVec 4) (i k : Nat) (h : k < 8) : (tagTweak p i)[8 + k] = (be64 i)[k] := by
  simp [tagTweak]

theorem nonceTweak_getElem_zero (n : Nonce) : (nonceTweak n)[0] = prefixByte pfxTag := by
  simp [nonceTweak, headedNonce]

theorem encTweak_getElem_zero (tag : Block) (j : Nat) : (encTweak tag j)[0] = tag[0] ||| 0x80 := by
  simp [encTweak]

theorem encTweak_getElem_tail (tag : Block) (j k : Nat) (h : k < 8) :
    (encTweak tag j)[8 + k] = tag[8 + k] ^^^ (be64 j)[k] := by
  simp [encTweak]

/-! ### No two roles meet in a tweak (R202) -/

theorem prefixByte_injective {p q : BitVec 4} (h : prefixByte p = prefixByte q) : p = q := by
  revert p q
  decide

/-- Bit 7 of byte 0 is the top bit of the role's nibble (R200). -/
theorem prefixByte_msb (p : BitVec 4) : (prefixByte p).msb = p.msb := by
  revert p
  decide

theorem tagTweak_injective {p q : BitVec 4} {i j : Nat} (hi : i < 2 ^ 64) (hj : j < 2 ^ 64)
    (h : tagTweak p i = tagTweak q j) : p = q ∧ i = j := by
  refine ⟨prefixByte_injective ?_, be64_injective hi hj (Vector.ext fun k hk => ?_)⟩
  · rw [← tagTweak_getElem_zero p i, h, tagTweak_getElem_zero]
  · rw [← tagTweak_getElem_tail p i k hk, ← tagTweak_getElem_tail q j k hk, h]

theorem encTweak_injective {tag : Block} {i j : Nat} (hi : i < 2 ^ 64) (hj : j < 2 ^ 64)
    (h : encTweak tag i = encTweak tag j) : i = j := by
  refine be64_injective hi hj (Vector.ext fun k hk => ?_)
  rw [← xor_xor_cancel tag[8 + k] (be64 i)[k], ← encTweak_getElem_tail, h, encTweak_getElem_tail, xor_xor_cancel]

/-- Byte 0 alone tells the tag role from the others. -/
theorem nonceTweak_ne_tagTweak {p : BitVec 4} (hp : p ≠ pfxTag) (n : Nonce) (i : Nat) : nonceTweak n ≠ tagTweak p i := by
  intro h
  refine hp (prefixByte_injective ?_)
  rw [← tagTweak_getElem_zero p i, ← h, nonceTweak_getElem_zero]

/-- The bit that marks the keystream's domain (R200, R205). -/
theorem encTweak_msb (tag : Block) (j : Nat) : (encTweak tag j)[0].msb = true := by
  rw [encTweak_getElem_zero, BitVec.msb_or]
  exact Bool.or_true _

theorem encTweak_ne_of_msb {tag t : Block} (ht : t[0].msb = false) (j : Nat) : encTweak tag j ≠ t := by
  rintro rfl
  rw [encTweak_msb] at ht
  cases ht

/-- The prefixes of the four block roles: none is the tag role's, and none has the keystream's bit (R201). -/
theorem blockPrefix_spec {p : BitVec 4} (hp : p ∈ [pfxMsg, pfxAd, pfxMsgFinal, pfxAdFinal]) :
    p ≠ pfxTag ∧ p.msb = false := by
  revert p
  decide

/-- Settles O53: a tag tweak holds its role and its index (`tagTweak_injective`); the nonce tweak has another byte 0, and only
the keystream tweaks have its bit 7 (`encTweak_msb`). -/
theorem tweakRolesNeverCollide : Obligations.TweakRolesNeverCollide := by
  refine ⟨fun p q _ _ i j hi hj h => tagTweak_injective hi hj h,
    fun p i n hp => nonceTweak_ne_tagTweak (blockPrefix_spec hp).1 n i, fun tag j p i hp => encTweak_ne_of_msb ?_ j,
    fun tag j n => encTweak_ne_of_msb ?_ j, fun tag i j hi hj h => encTweak_injective hi hj h⟩
  · rw [tagTweak_getElem_zero, prefixByte_msb, (blockPrefix_spec hp).2]
  · rw [nonceTweak_getElem_zero, prefixByte_msb]
    rfl

/-! ### The streams of the authentication pass (R208, R210) -/

/-- Only at length 0 does `EMPTY_MARKER` decide whether there is a final block. -/
theorem hasFinalBlock_of_pos (em : Bool) {len : Nat} (h : 0 < len) : hasFinalBlock em len = decide (len % 16 ≠ 0) := by
  simp [hasFinalBlock, Nat.ne_of_gt h]

theorem streamAcc_of_ne_nil (em : Bool) (kl : RoundKeys) (p q : BitVec 4) {x : List Byte} (hx : x ≠ []) :
    streamAcc em kl p q x = streamAcc false kl p q x := by
  have hlen := List.length_pos_iff.2 hx
  simp only [streamAcc, hasFinalBlock_of_pos _ hlen]

theorem fullBlocksAcc_nil (kl : RoundKeys) (p : BitVec 4) : fullBlocksAcc kl p [] = Block.zeros := rfl

/-- Settles O54: the parameter is read only through `hasFinalBlock`, at length 0; there are no full blocks there. -/
theorem emptyMarkerTouchesOnlyEmptyStreams : Obligations.EmptyMarkerTouchesOnlyEmptyStreams := by
  refine fun kl p q x => ⟨streamAcc_of_ne_nil true kl p q, fullBlocksAcc_nil kl p, ?_⟩
  calc streamAcc true kl p q []
      = xorBlock (fullBlocksAcc kl p []) (tbcE kl (tagTweak q 0) (padBlock [])) := rfl
    _ = tbcE kl (tagTweak q 0) (padBlock []) := by rw [fullBlocksAcc_nil, zeros_xorBlock]

/-! ### The keystream pass (R214, R215) -/

/-- Byte `k` of the keystream: byte `k mod 16` of block `k div 16` (R214). -/
def keystreamByte (kl : RoundKeys) (n : Nonce) (tag : Block) (k : Nat) : Byte :=
  (keystreamBlock kl n tag (k / 16)).toList.getD (k % 16) 0

theorem keystreamByte_mul_add (kl : RoundKeys) (n : Nonce) (tag : Block) (j : Nat) {i : Nat} (h : i < 16) :
    keystreamByte kl n tag (16 * j + i) = (keystreamBlock kl n tag j)[i] := by
  have hdiv : (16 * j + i) / 16 = j := by omega
  have hmod : (16 * j + i) % 16 = i := by omega
  rw [keystreamByte, hdiv, hmod]
  simp [h]

/-- A chunk against its keystream block, byte by byte of the whole string. -/
theorem xorBytes_chunk (kl : RoundKeys) (n : Nonce) (tag : Block) (x : List Byte) (j : Nat) :
    xorBytes (chunk x j) (keystreamBlock kl n tag j).toList =
      (chunk x j).mapIdx fun i b => b ^^^ keystreamByte kl n tag (16 * j + i) := by
  refine List.ext_getElem (by simp) fun i hi _ => ?_
  have hi16 : i < 16 := by
    simp only [xorBytes_length, chunk_length, Vector.length_toList] at hi
    omega
  simp [xorBytes, keystreamByte_mul_add, hi16]

/-- The first `m` chunks against their keystream blocks, byte by byte. -/
theorem flatMap_xorBytes_chunk (kl : RoundKeys) (n : Nonce) (tag : Block) (x : List Byte) (m : Nat) :
    ((List.range m).flatMap fun j => xorBytes (chunk x j) (keystreamBlock kl n tag j).toList) =
      (x.take (16 * m)).mapIdx fun k b => b ^^^ keystreamByte kl n tag k := by
  induction m with
  | zero => simp
  | succ m ih =>
    have htake : x.take (16 * (m + 1)) = x.take (16 * m) ++ chunk x m := List.take_add
    rw [List.range_succ, List.flatMap_append, ih, htake, List.mapIdx_append, List.flatMap_singleton, xorBytes_chunk]
    by_cases hlen : 16 * m ≤ x.length
    · simp [hlen, Nat.add_comm]
    · have hnil : chunk x m = [] := List.eq_nil_of_length_eq_zero (by rw [chunk_length]; omega)
      rw [hnil, List.mapIdx_nil, List.mapIdx_nil]

/-- The chunks cut out of the pass (R215): every byte meets the keystream byte of its own place. -/
theorem keystreamXor_eq_mapIdx (kl : RoundKeys) (n : Nonce) (tag : Block) (x : List Byte) :
    keystreamXor kl n tag x = x.mapIdx fun k b => b ^^^ keystreamByte kl n tag k := by
  have hall : x.take (16 * ceilBlocks x.length) = x := List.take_of_length_le (by rw [ceilBlocks]; omega)
  rw [keystreamXor, flatMap_xorBytes_chunk, hall]

theorem keystreamXor_getElem? (kl : RoundKeys) (n : Nonce) (tag : Block) (x : List Byte) (k : Nat) :
    (keystreamXor kl n tag x)[k]? = x[k]?.map (· ^^^ keystreamByte kl n tag k) := by
  rw [keystreamXor_eq_mapIdx, List.getElem?_mapIdx]

/-- The keystream depends on the place alone, so the second pass takes off what the first one put on (R215). -/
theorem keystreamXor_keystreamXor (kl : RoundKeys) (n : Nonce) (tag : Block) (x : List Byte) :
    keystreamXor kl n tag (keystreamXor kl n tag x) = x := by
  refine List.ext_getElem? fun k => ?_
  have hcancel : ∀ b c : Byte, b ^^^ c ^^^ c = b := fun b c => by
    rw [BitVec.xor_assoc, BitVec.xor_self, BitVec.xor_zero]
  rw [keystreamXor_getElem?, keystreamXor_getElem?, Option.map_map]
  simp only [Function.comp_def, hcancel, Option.map_id']

/-- Settles O55: `keystreamXor_keystreamXor`, and the byte of each place is `keystreamXor_getElem?`. -/
theorem keystreamXorUndoesItself : Obligations.KeystreamXorUndoesItself := by
  refine fun kl n tag x => ⟨keystreamXor_keystreamXor kl n tag x, fun k h => ?_⟩
  rw [keystreamXor_getElem?, List.getElem?_eq_getElem h, Option.map_some, keystreamByte]

/-! ### Opening what was sealed (R216 to R218) -/

theorem openBody_append (c : List Byte) (tag : Block) : openBody (c ++ tag.toList) = c := by
  simp [openBody]

theorem openClaim_append (c : List Byte) (tag : Block) : openClaim (c ++ tag.toList) = tag := by
  apply Vector.ext
  intro k hk
  simp [openClaim, hk]

/-- The candidate plaintext of a sealed message is the message: the claimed tag is the one it was enciphered under. -/
theorem openCandidate_sealBytes (em : Bool) (kl : RoundKeys) (n : Nonce) (ad msg : List Byte) :
    openCandidate kl n (sealBytes em kl n ad msg) = msg := by
  rw [openCandidate, sealBytes, openClaim_append, openBody_append, keystreamXor_keystreamXor]

theorem openBytes_sealBytes (em : Bool) (kl : RoundKeys) (n : Nonce) (ad msg : List Byte) :
    openBytes em kl n ad (sealBytes em kl n ad msg) = some msg := by
  have hlen : ¬ (sealBytes em kl n ad msg).length < 16 := by simp
  have hclaim : openClaim (sealBytes em kl n ad msg) = authPass em kl n ad msg := openClaim_append _ _
  rw [openBytes, if_neg hlen, openCandidate_sealBytes, hclaim, if_pos rfl]

/-- Settles O56: the candidate is the message (`openCandidate_sealBytes`), so the tags compare equal. -/
theorem openBytesInvertsSealBytes : Obligations.OpenBytesInvertsSealBytes := openBytes_sealBytes

end Sys2Proof.Machine
end

section
/-! PROOFS. `SEAL` and `OPEN` on the machine (spec/44_aead_commands.md): when their checks pass, and the round trip of R218
through `DMEM`. -/

namespace Sys2Proof.Machine

/-! ### When the checks of `SEAL` and `OPEN` pass (R66, R67, R247, R252) -/

theorem overlaps_eq_false_iff_apart (r q : Region) : r.overlaps q = false ↔ r.apart q := by
  rw [← Bool.not_eq_true, Region.overlaps, overlap_iff]
  omega

theorem forbiddenOverlap_eq_false_iff (s : State) (rd : Region) :
    forbiddenOverlap s.latch rd = false ↔ s.outputApart rd := by
  simp only [forbiddenOverlap, Bool.or_eq_false_iff, Bool.and_eq_false_iff, overlaps_eq_false_iff_apart,
    decide_eq_false_iff_not, Classical.not_not, and_assoc]

theorem outOfBounds_eq_false_iff {i : Instr} {s : State} :
    outOfBounds s.cfg.dmemSize i s.latch = false ↔ s.regionsInside i := by
  rw [← Bool.not_eq_true, outOfBounds_iff_not_regionsInside, Classical.not_not]

/-- The checks of R247, as statements about natural numbers. -/
theorem sealChecks_pass_iff {s : State} :
    firstFault (sealChecks s) = none ↔
      s.ready ∧ s.latch.nonceLen.toNat = 15 ∧ s.regionsInside .aeadSeal ∧ s.outputApart s.latch.sealRegion := by
  rw [firstFault_none, ← outOfBounds_eq_false_iff, ← forbiddenOverlap_eq_false_iff]
  simp [sealChecks, and_assoc]

/-- The checks of R252 before the tags are compared, as statements about natural numbers. -/
theorem openChecks_pass_iff {s : State} :
    firstFault (openChecks s) = none ↔
      s.ready ∧ s.latch.nonceLen.toNat = 15 ∧ 16 ≤ s.latch.srcLen.toNat ∧ s.regionsInside .aeadOpen ∧
        s.outputApart s.latch.openRegion := by
  rw [firstFault_none, ← outOfBounds_eq_false_iff, ← forbiddenOverlap_eq_false_iff]
  simp [openChecks, and_assoc]

/-- A command that ends without fault has passed its checks and had its effect. -/
theorem exec_without_fault {i : Instr} {s t : State} (h : exec i s = .next t) (hok : t.err = .ok) :
    firstFault (checksOf i s) = none ∧ CommandEffect i s t := by
  rcases exec_next i s t h with ⟨f, hf, rfl⟩ | ⟨-, -, -, rfl⟩ | heff
  · exact absurd hok (checksOf_ne_ok i s f hf)
  · cases hok
  · exact heff

theorem exec_open_of_openResult {s : State} {m : List Byte} (hpass : firstFault (openChecks s) = none)
    (hres : s.openResult = some m) :
    exec .aeadOpen s = .next ((s.store m).succeed (s.latch.srcLen.toNat - 16) .verified) := by
  simp only [exec_eq_runChecked, State.runChecked, checksOf, hpass, State.afterChecks, hres, Option.elim_some]

/-! ### The output of `SEAL` as the input of `OPEN` (R218) -/

/-- The state after a `SEAL` without fault (R247). -/
def State.afterSeal (s : State) : State := (s.store s.sealResult).succeed (s.latch.srcLen.toNat + 16) .done

/-- After that `SEAL`, an `OPEN` of its output into `d` is about to run: the nonce and the associated data as before. -/
def State.reopening (s : State) (d : Word) : State :=
  { s.afterSeal with
    latch := { s.latch with srcAddr := s.latch.dstAddr, srcLen := s.afterSeal.outLen, dstAddr := d } }

theorem reopening_dmem (s : State) (d : Word) :
    (s.reopening d).dmem = s.dmem.write s.latch.dstAddr.toNat s.sealResult := rfl

theorem reopening_canonical (s : State) (hinv : s.Inv) (d : Word) : (s.reopening d).dmem.wf = true :=
  Memory.wf_write _ _ _ hinv.canonical

section
variable {s : State} (hinv : s.Inv) (hpass : firstFault (sealChecks s) = none) (d : Word)

include hpass

/-- `SEAL` writes over neither the nonce nor the associated data (R67). -/
theorem reopening_operands :
    (s.reopening d).nonceOperand = s.nonceOperand ∧ (s.reopening d).adOperand = s.adOperand := by
  obtain ⟨-, -, -, hnonce, had, -⟩ := sealChecks_pass_iff.1 hpass
  have hlen : s.sealResult.length ≤ s.latch.sealRegion.len := Nat.le_of_eq (sealResult_length s)
  exact ⟨(AgreeOn.write_apart hnonce hlen).readVec.symm, (AgreeOn.write_apart had hlen).read.symm⟩

include hinv

/-- `OUT_LEN` holds the whole length of the output: it does not wrap around (`sealRegion_len_lt`). -/
theorem reopening_srcLen : (s.reopening d).latch.srcLen.toNat = s.latch.srcLen.toNat + 16 := by
  have hlt : s.latch.srcLen.toNat + 16 < 2 ^ 32 := sealRegion_len_lt hinv hpass
  exact (BitVec.toNat_ofNat ..).trans (Nat.mod_eq_of_lt hlt)

theorem reopening_srcRegion : (s.reopening d).latch.srcRegion = s.latch.sealRegion := by
  rw [Descriptors.srcRegion, reopening_srcLen hinv hpass d]
  rfl

/-- `OPEN` reads what `SEAL` wrote (R62). -/
theorem reopening_srcOperand : (s.reopening d).srcOperand = s.sealResult := by
  rw [State.srcOperand, reopening_dmem, reopening_srcLen hinv hpass d, ← sealResult_length s]
  exact Memory.read_write_same _ _ _ hinv.canonical

theorem reopening_openResult : (s.reopening d).openResult = some s.srcOperand := by
  obtain ⟨hnonce, had⟩ := reopening_operands hpass d
  rw [State.openResult, hnonce, had, reopening_srcOperand hinv hpass d]
  exact openBytes_sealBytes ..

/-- Of the checks of `OPEN` only those of the new destination are not already those of the `SEAL`. -/
theorem reopening_checks_pass (hin : (s.reopening d).regionInside (s.reopening d).latch.openRegion)
    (hapart : (s.reopening d).outputApart (s.reopening d).latch.openRegion) :
    firstFault (openChecks (s.reopening d)) = none := by
  obtain ⟨hready, hnonceLen, ⟨hout, hread⟩, -⟩ := sealChecks_pass_iff.1 hpass
  have hlen : 16 ≤ (s.reopening d).latch.srcLen.toNat := by
    rw [reopening_srcLen hinv hpass d]
    exact Nat.le_add_left ..
  refine openChecks_pass_iff.2 ⟨hready, hnonceLen, hlen, ⟨hin, ?_⟩, hapart⟩
  simp only [regionsRead, List.mem_cons, List.not_mem_nil, or_false, forall_eq_or_imp, forall_eq] at hread ⊢
  obtain ⟨hnonce, had, -⟩ := hread
  refine ⟨hnonce, had, ?_⟩
  rw [reopening_srcRegion hinv hpass d]
  exact hout

/-- That `OPEN` releases what the `SEAL` had read. -/
theorem exec_open_reopening (hin : (s.reopening d).regionInside (s.reopening d).latch.openRegion)
    (hapart : (s.reopening d).outputApart (s.reopening d).latch.openRegion) :
    exec .aeadOpen (s.reopening d) =
      .next (((s.reopening d).store s.srcOperand).succeed s.latch.srcLen.toNat .verified) := by
  rw [exec_open_of_openResult (reopening_checks_pass hinv hpass d hin hapart) (reopening_openResult hinv hpass d),
    reopening_srcLen hinv hpass d, Nat.add_sub_cancel]

end

/-- Settles O57: the `SEAL` passed its checks, so the `OPEN` passes its own and releases what the `SEAL` read
(`exec_open_reopening`); what it stores reads back. -/
theorem openRecoversWhatSealWrote : Obligations.OpenRecoversWhatSealWrote := by
  intro s t d hinv hseal hok
  obtain ⟨hpass, rfl⟩ := exec_without_fault hseal hok
  intro u hin hapart
  refine ⟨_, exec_open_reopening hinv hpass d hin hapart, rfl, rfl, BitVec.ofNat_toNat .., ?_⟩
  have hback := Memory.read_write_same _ d.toNat s.srcOperand (reopening_canonical s hinv d)
  rwa [State.srcOperand, Memory.read_length] at hback

end Sys2Proof.Machine
end

section
/-! PROOFS. The AEAD commands (spec/44_aead_commands.md): the end state of `NEW`, `SEAL` and `OPEN` where their checks pass,
the first fault of each where one fails, and what an `OPEN` that ends in `E_AUTH` cannot reveal (R254). -/

namespace Sys2Proof.Machine

/-! ### What a rejected `OPEN` leaves (R254, R255) -/

/-- A command that ends with a code in `ERR` has done nothing but take that fault (R310). -/
theorem eq_raise_of_err_ne_ok {i : Instr} {s t : State} (h : exec i s = .next t) (hne : t.err ≠ .ok) :
    t = s.raise t.err := by
  rcases exec_cases h with ⟨f, -, rfl⟩ | ⟨-, u, ph, -, -, rfl⟩
  · rw [State.raise_err]
  · exact absurd (State.succeed_err ..) hne

/-- Settles O15: both runs have only taken `E_AUTH` (`eq_raise_of_err_ne_ok`), and the fault entry neither reads nor writes
`KEY`, `KL` and `DMEM`. -/
theorem rejectedOpenRevealsNothing : Obligations.RejectedOpenRevealsNothing := by
  intro s k l m t u ht hu htauth huauth
  have htraise : t = s.raise .auth := by
    rw [← htauth]
    exact eq_raise_of_err_ne_ok ht (by simp [htauth])
  have huraise : u = { s with key := k, kl := l, dmem := m }.raise .auth := by
    rw [← huauth]
    exact eq_raise_of_err_ne_ok hu (by simp [huauth])
  rw [huraise, htraise]
  exact ⟨rfl, rfl⟩

/-! ### Checks that pass, and checks that fail (R66, R67) -/

/-- A command whose checks all pass completes in the state of its effect. -/
theorem exec_of_checks_pass {i : Instr} {s : State} (h : firstFault (checksOf i s) = none) :
    exec i s = .next (s.afterChecks i) := by
  rw [exec_eq_runChecked, State.runChecked, h]

/-- The overlap check of `SEAL` and `OPEN` fails exactly where the output is not apart as R67 asks. -/
theorem forbiddenOverlap_iff_not_outputApart (s : State) (rd : Region) :
    forbiddenOverlap s.latch rd = true ↔ ¬ s.outputApart rd := by
  rw [← forbiddenOverlap_eq_false_iff, Bool.not_eq_false]

/-! ### `NEW` (R243) -/

/-- `NEW` touches no region but that of its key (R70). -/
theorem regionsInside_new_iff (s : State) :
    s.regionsInside .aeadNew ↔ s.latch.keyAddr.toNat + 32 ≤ s.cfg.dmemSize := by
  simp [State.regionsInside, State.regionInside, regionWritten, regionsRead, Descriptors.keyRegion]

/-- The checks of R243, as statements about natural numbers. -/
theorem newChecks_pass_iff {s : State} :
    firstFault (newChecks s) = none ↔
      s.fatal = false ∧ s.latch.keyLen.toNat = 32 ∧ s.latch.keyAddr.toNat + 32 ≤ s.cfg.dmemSize := by
  rw [firstFault_none, ← regionsInside_new_iff, ← outOfBounds_eq_false_iff]
  simp [newChecks]

/-- Settles O10: where the checks pass (`newChecks_pass_iff`) the effect is the key load; else `newChecks` raises the code of
the clause first. -/
theorem newLoadsTheKey : Obligations.NewLoadsTheKey := by
  refine ⟨rfl, fun s => ⟨fun hfatal hlen hin => ?_, fun hfatal hlen => ?_, fun hfatal hlen hout => ?_, fun hfatal => ?_⟩⟩
  · have hpass : firstFault (checksOf .aeadNew s) = none := newChecks_pass_iff.2 ⟨hfatal, hlen, hin⟩
    rw [exec_of_checks_pass hpass, State.afterChecks, succeed_eq_afterSuccess]
    rfl
  · exact exec_eq_afterFault (f := .keyLen) (by simp [checksOf, newChecks, hfatal, hlen])
  · have hbounds : outOfBounds s.cfg.dmemSize .aeadNew s.latch = true := by
      rw [outOfBounds_iff_not_regionsInside, regionsInside_new_iff]
      omega
    exact exec_eq_afterFault (f := .bounds) (by simp [checksOf, newChecks, hfatal, hlen, hbounds])
  · exact exec_eq_afterFault (f := .fatal) (by simp [checksOf, newChecks, hfatal])

/-! ### `SEAL` (R247) -/

/-- `C || T` in two stores: the keystream pass over the message, and the tag behind it (R216). -/
theorem store_sealResult (s : State) :
    let t := authPass s.cfg.emptyMarker s.kl s.nonceOperand s.adOperand s.srcOperand
    (s.store s.sealResult).dmem =
      (s.dmem.write s.latch.dstAddr.toNat (keystreamXor s.kl s.nonceOperand t s.srcOperand)).write
        (s.latch.dstAddr.toNat + s.latch.srcLen.toNat) t.toList := by
  intro t
  have hlen : (keystreamXor s.kl s.nonceOperand t s.srcOperand).length = s.latch.srcLen.toNat := by
    rw [keystreamXor_length, State.srcOperand, Memory.read_length]
  rw [State.store_dmem, State.sealResult, sealBytes, Memory.write_append, hlen]

/-- Settles O11: the checks of `SEAL` pass (`sealChecks_pass_iff`), and its output is stored as `store_sealResult` says. -/
theorem sealWritesCiphertextAndTag : Obligations.SealWritesCiphertextAndTag := by
  intro s hready hnonce hin hapart n a m t
  have hpass : firstFault (checksOf .aeadSeal s) = none := sealChecks_pass_iff.2 ⟨hready, hnonce, hin, hapart⟩
  have hstore : s.store s.sealResult =
      { s with
        dmem := (s.dmem.write s.latch.dstAddr.toNat (keystreamXor s.kl n t m)).write
          (s.latch.dstAddr.toNat + s.latch.srcLen.toNat) t.toList } :=
    congrArg (fun d => { s with dmem := d }) (store_sealResult s)
  rw [exec_of_checks_pass hpass, State.afterChecks, succeed_eq_afterSuccess, hstore]

/-- Settles O12: in each clause `sealChecks` raises its code first, and `exec_eq_afterFault` gives the end state. -/
theorem sealTakesItsFirstFault : Obligations.SealTakesItsFirstFault := by
  refine fun s => ⟨fun hfatal => ?_, fun hfatal hkey => ?_, fun ⟨hfatal, hkey⟩ hnonce => ?_,
    fun ⟨hfatal, hkey⟩ hnonce hout => ?_, fun ⟨hfatal, hkey⟩ hnonce hin hover => ?_⟩
  · exact exec_eq_afterFault (f := .fatal) (by simp [checksOf, sealChecks, hfatal])
  · exact exec_eq_afterFault (f := .noKey) (by simp [checksOf, sealChecks, hfatal, hkey])
  · exact exec_eq_afterFault (f := .nonceLen) (by simp [checksOf, sealChecks, hfatal, hkey, hnonce])
  · have hbounds := outOfBounds_iff_not_regionsInside.2 hout
    exact exec_eq_afterFault (f := .bounds) (by simp [checksOf, sealChecks, hfatal, hkey, hnonce, hbounds])
  · have hbounds := outOfBounds_of_regionsInside hin
    have hoverlap := (forbiddenOverlap_iff_not_outputApart s _).2 hover
    exact exec_eq_afterFault (f := .overlap) (by simp [checksOf, sealChecks, hfatal, hkey, hnonce, hbounds, hoverlap])

/-! ### `OPEN` (R252) -/

theorem Memory.take_read (m : Memory) (a n k : Nat) : (m.read a n).take k = m.read a (min k n) := by
  rw [Memory.read, ← List.map_take, List.take_range, Memory.read]

/-- A block cut out of bytes that were read is the block read at that place (R62). -/
theorem Memory.blockAt_read (m : Memory) {a n p : Nat} (h : p + 16 ≤ n) :
    blockAt (m.read a n) p = m.readBlock (a + p) := by
  apply Vector.ext
  intro k hk
  have hin : p + k < n := by omega
  simp [Memory.readBlock, hin, Nat.add_assoc]

/-- The claimed tag in `DMEM`: the last 16 bytes of the input of `OPEN` (R217). -/
def State.claimedTag (s : State) : Block := s.dmem.readBlock (s.latch.srcAddr.toNat + s.latch.srcLen.toNat - 16)

/-- The candidate plaintext of `OPEN`: the bytes before the claimed tag, decrypted under it (R217). -/
def State.candidate (s : State) : List Byte :=
  keystreamXor s.kl s.nonceOperand s.claimedTag (s.dmem.read s.latch.srcAddr.toNat (s.latch.srcLen.toNat - 16))

/-- The tag recomputed over the candidate plaintext (R217). -/
def State.recomputedTag (s : State) : Block :=
  authPass s.cfg.emptyMarker s.kl s.nonceOperand s.adOperand s.candidate

theorem openClaim_srcOperand {s : State} (h : 16 ≤ s.latch.srcLen.toNat) : openClaim s.srcOperand = s.claimedTag := by
  have hend : s.latch.srcLen.toNat - 16 + 16 ≤ s.latch.srcLen.toNat := by omega
  rw [openClaim, State.srcOperand, Memory.read_length, Memory.blockAt_read _ hend, ← Nat.add_sub_assoc h,
    State.claimedTag]

theorem openBody_srcOperand (s : State) :
    openBody s.srcOperand = s.dmem.read s.latch.srcAddr.toNat (s.latch.srcLen.toNat - 16) := by
  rw [openBody, State.srcOperand, Memory.read_length, Memory.take_read, Nat.min_eq_left (Nat.sub_le ..)]

/-- The candidate is released exactly where the two tags are equal (R252, R254). -/
theorem openResult_eq {s : State} (h : 16 ≤ s.latch.srcLen.toNat) :
    s.openResult = if s.recomputedTag = s.claimedTag then some s.candidate else none := by
  have hlong : ¬ s.srcOperand.length < 16 := by
    rw [State.srcOperand, Memory.read_length]
    omega
  have hcandidate : openCandidate s.kl s.nonceOperand s.srcOperand = s.candidate := by
    rw [openCandidate, openClaim_srcOperand h, openBody_srcOperand, State.candidate]
  rw [State.openResult, openBytes, if_neg hlong, hcandidate, openClaim_srcOperand h, State.recomputedTag]

/-- Settles O13: the checks of `OPEN` pass (`openChecks_pass_iff`), so it ends as the comparison of the tags says
(`openResult_eq`). -/
theorem openReleasesOnlyVerifiedPlaintext : Obligations.OpenReleasesOnlyVerifiedPlaintext := by
  intro s hready hnonce hlen hin hapart n a c claimed m
  have hpass : firstFault (openChecks s) = none := openChecks_pass_iff.2 ⟨hready, hnonce, hlen, hin, hapart⟩
  refine ⟨fun (htag : s.recomputedTag = s.claimedTag) => ?_, fun (htag : s.recomputedTag ≠ s.claimedTag) => ?_⟩
  · have hres : s.openResult = some s.candidate := by rw [openResult_eq hlen, if_pos htag]
    rw [exec_open_of_openResult hpass hres, succeed_eq_afterSuccess]
    rfl
  · have hres : s.openResult = none := by rw [openResult_eq hlen, if_neg htag]
    have hexec : exec .aeadOpen s = .next (s.afterChecks .aeadOpen) := exec_of_checks_pass hpass
    rw [hexec, State.afterChecks, hres, Option.elim_none, raise_eq_afterFault s .auth (by decide)]
    rfl

/-- Settles O14: in each clause `openChecks` raises its code first, the length before the bounds, and `exec_eq_afterFault`
gives the end state. -/
theorem openTakesItsFirstFault : Obligations.OpenTakesItsFirstFault := by
  refine fun s => ⟨fun hfatal => ?_, fun hfatal hkey => ?_, fun ⟨hfatal, hkey⟩ hnonce => ?_,
    fun ⟨hfatal, hkey⟩ hnonce hshort => ?_, fun ⟨hfatal, hkey⟩ hnonce hlen hout => ?_,
    fun ⟨hfatal, hkey⟩ hnonce hlen hin hover => ?_⟩
  · exact exec_eq_afterFault (f := .fatal) (by simp [checksOf, openChecks, hfatal])
  · exact exec_eq_afterFault (f := .noKey) (by simp [checksOf, openChecks, hfatal, hkey])
  · exact exec_eq_afterFault (f := .nonceLen) (by simp [checksOf, openChecks, hfatal, hkey, hnonce])
  · exact exec_eq_afterFault (f := .auth) (by simp [checksOf, openChecks, hfatal, hkey, hnonce, hshort])
  · have hbounds := outOfBounds_iff_not_regionsInside.2 hout
    exact exec_eq_afterFault (f := .bounds)
      (by simp [checksOf, openChecks, hfatal, hkey, hnonce, Nat.not_lt.2 hlen, hbounds])
  · have hbounds := outOfBounds_of_regionsInside hin
    have hoverlap := (forbiddenOverlap_iff_not_outputApart s _).2 hover
    exact exec_eq_afterFault (f := .overlap)
      (by simp [checksOf, openChecks, hfatal, hkey, hnonce, Nat.not_lt.2 hlen, hbounds, hoverlap])

end Sys2Proof.Machine
end

section
/-! PROOFS. The system commands (spec/45_system_commands.md): the words of `NOP`, `CLR` and `SELB`, the end state of each where
its checks pass, and the first fault where one fails. -/

namespace Sys2Proof.Machine

/-! ### The checks of the system commands (R271, R273, R276) -/

/-- Every command checks for the fatal state before anything else (R314). -/
theorem checksOf_head (i : Instr) (s : State) : ∃ rest, checksOf i s = (s.fatal, .fatal) :: rest := by
  cases i <;> exact ⟨_, rfl⟩

/-- In the fatal state every command ends in `E_FATAL` and in nothing else (R309). -/
theorem exec_of_fatal (i : Instr) {s : State} (hfatal : s.fatal = true) :
    exec i s = .next (s.afterFault .fatal .idle false) := by
  obtain ⟨rest, hchecks⟩ := checksOf_head i s
  have hfirst : firstFault (checksOf i s) = some .fatal := by rw [hchecks, hfatal, firstFault_cons, if_pos rfl]
  exact exec_eq_afterFault hfirst

/-- `NOP` and `CLR` check for the fatal state alone (R271, R273). -/
theorem fatalCheck_pass_iff {s : State} : firstFault [(s.fatal, .fatal)] = none ↔ s.fatal = false := by
  rw [firstFault_none]
  simp

/-- The checks of R276: besides the fatal state only the strap, and that only for the hardware backend. -/
theorem selbChecks_pass_iff {b : Backend} {s : State} :
    firstFault (checksOf (.selb b) s) = none ↔ s.fatal = false ∧ (b = .hw → s.cfg.hwcap = true) := by
  rw [firstFault_none]
  simp [checksOf]

/-! ### The commands -/

/-- Settles O7: where the check of `NOP` passes (`fatalCheck_pass_iff`) its effect is a completion alone. -/
theorem nopOnlyCompletes : Obligations.NopOnlyCompletes := by
  refine ⟨rfl, fun s => ⟨fun hfatal => ?_, exec_of_fatal .nop⟩⟩
  have hpass : firstFault (checksOf .nop s) = none := fatalCheck_pass_iff.2 hfatal
  rw [exec_of_checks_pass hpass, State.afterChecks, succeed_eq_afterSuccess]

/-- Settles O8: where the check of `CLR` passes (`fatalCheck_pass_iff`) its effect is `State.eraseKey` and a completion. -/
theorem clrErasesTheKey : Obligations.ClrErasesTheKey := by
  refine ⟨rfl, fun s => ⟨fun hfatal => ?_, exec_of_fatal .clr⟩⟩
  have hpass : firstFault (checksOf .clr s) = none := fatalCheck_pass_iff.2 hfatal
  rw [exec_of_checks_pass hpass, State.afterChecks, succeed_eq_afterSuccess, State.eraseKey]

/-- The word of `SELB b` is its opcode with the number of the backend in the two low bits of `IMM` (R93, R276). -/
theorem encode_selb_toNat (b : Backend) : (encode (.selb b)).toNat = 0x05000000 + b.code.toNat := by
  cases b <;> rfl

/-- Settles O9: where the checks pass (`selbChecks_pass_iff`) the effect is the write of `BACKEND`; without the strap the
hardware backend fails the second check, and the fatal state the first. -/
theorem selbSelectsThePresentBackend : Obligations.SelbSelectsThePresentBackend := by
  refine fun b s => ⟨encode_selb_toNat b, fun hfatal hpresent => ?_, fun hfatal hhw hcap => ?_, exec_of_fatal (.selb b)⟩
  · rw [exec_of_checks_pass (selbChecks_pass_iff.2 ⟨hfatal, hpresent⟩), State.afterChecks, succeed_eq_afterSuccess]
  · have hfirst : firstFault (checksOf (.selb b) s) = some .backend := by simp [checksOf, hfatal, hhw, hcap]
    exact exec_eq_afterFault hfirst

end Sys2Proof.Machine
end

section
/-! PROOFS. The exceptions (spec/60_exceptions.md): the fault entry written out, which command raises which fault, what a turn
of the engine answers for an illegal word and in the fatal state, and what a step from the fatal state can change. -/

namespace Sys2Proof.Machine

/-! ### The fault entry (R310, R312) -/

theorem ErrCode.restingPhase_eq (f : ErrCode) : f.restingPhase = if f = .auth then .rejected else .idle := by
  cases f <;> rfl

theorem ErrCode.isFatal_eq (f : ErrCode) : f.isFatal = (decide (f = .bounds) || decide (f = .overlap)) := by
  cases f <;> rfl

theorem ErrCode.isFatal_iff (f : ErrCode) : f.isFatal = true ↔ f = .bounds ∨ f = .overlap := by
  rw [f.isFatal_eq, Bool.or_eq_true, decide_eq_true_eq, decide_eq_true_eq]

/-- Settles O26: such a command has only taken its fault (`eq_raise_of_err_ne_ok`), and the fault entry leaves every field
named in the statement but `OUT_LEN` as it was. -/
theorem faultsAreClean : Obligations.FaultsAreClean := by
  intro i s t h hne
  have hraise : t = s.raise t.err := eq_raise_of_err_ne_ok h hne
  refine ⟨?_, ?_⟩
  · rwa [← t.err.restingPhase_eq, ← t.err.isFatal_eq, ← raise_eq_afterFault s t.err hne]
  · rw [hraise]
    exact ⟨rfl, rfl, rfl, rfl, rfl, rfl, rfl, rfl, rfl, rfl, rfl⟩

/-! ### The faults of each command (R300) -/

/-- The checks of a command raise only codes that its row of R300 lists. -/
theorem code_mem_faultsOf {i : Instr} {s : State} {c : Bool × ErrCode} (h : c ∈ checksOf i s) : c.2 ∈ faultsOf i := by
  revert c
  cases i <;> simp [checksOf, newChecks, sealChecks, openChecks, tbcChecks, faultsOf]

theorem ok_mem_faultsOf (i : Instr) : ErrCode.ok ∈ faultsOf i := by
  cases i <;> exact List.mem_cons_self

/-- `E_FATAL` is the code of one check only, that of the fatal state. -/
theorem fatal_mem_checksOf_iff {i : Instr} {s : State} : (true, ErrCode.fatal) ∈ checksOf i s ↔ s.fatal = true := by
  cases i <;> simp [checksOf, newChecks, sealChecks, openChecks, tbcChecks]

/-- A command raises `E_FATAL` in the fatal state and there alone (R309, R314). -/
theorem exec_err_fatal_iff {i : Instr} {s t : State} (h : exec i s = .next t) : t.err = .fatal ↔ s.fatal = true := by
  constructor
  · intro herr
    rcases exec_next i s t h with ⟨f, hf, rfl⟩ | ⟨-, -, -, rfl⟩ | ⟨-, heff⟩
    · rw [State.raise_err] at herr
      rw [herr] at hf
      exact fatal_mem_checksOf_iff.1 (firstFault_some _ _ hf)
    · cases herr
    · obtain ⟨u, ph, -, -, rfl⟩ := heff.ownWrites
      cases herr
  · intro hfatal
    rw [exec_of_fatal i hfatal] at h
    cases h
    rfl

/-- A command leaves in `ERR` a code of its row of R300. -/
theorem exec_err_mem_faultsOf {i : Instr} {s t : State} (h : exec i s = .next t) : t.err ∈ faultsOf i := by
  rcases exec_next i s t h with ⟨f, hf, rfl⟩ | ⟨rfl, -, -, rfl⟩ | ⟨-, heff⟩
  · exact code_mem_faultsOf (firstFault_some _ _ hf)
  · simp [faultsOf]
  · obtain ⟨u, ph, -, -, rfl⟩ := heff.ownWrites
    exact ok_mem_faultsOf i

/-- A command sets `FATAL` only by a fatal fault, and never clears it (R310, R312). -/
theorem exec_fatal_iff {i : Instr} {s t : State} (h : exec i s = .next t) :
    t.fatal = true ↔ s.fatal = true ∨ t.err = .bounds ∨ t.err = .overlap := by
  rcases exec_cases h with ⟨f, -, rfl⟩ | ⟨-, u, ph, hu, -, rfl⟩
  · rw [State.raise_fatal, State.raise_err, Bool.or_eq_true, f.isFatal_iff]
  · have hfatal : u.fatal = s.fatal := by rw [hu.frame]
    simp [hfatal]

/-- Settles O27: its three parts are one lemma each. -/
theorem commandsRaiseOnlyTheirFaults : Obligations.CommandsRaiseOnlyTheirFaults :=
  fun _ _ _ h => ⟨exec_err_mem_faultsOf h, exec_fatal_iff h, exec_err_fatal_iff h⟩

/-! ### The engine's turn on an illegal word and in the fatal state (R305, R309) -/

/-- The host reads the code of the fault in `ERR` (R30). -/
theorem readReg_err_afterFault (s : State) (f : ErrCode) (ph : Phase) (fatal : Bool) :
    (s.afterFault f ph fatal).readReg 0x08 = 0#24 ++ f.code := rfl

theorem runCommand_of_error {s : State} {e : DecodeError} (h : decode s.cmd = .error e) : s.runCommand = illegalWord s := by
  simp only [State.runCommand, State.fetch, h]

/-- Outside the fatal state an illegal word ends in `E_ILLCMD` (R305). -/
theorem runCommand_of_illegal {s : State} {e : DecodeError} (h : decode s.cmd = .error e) (hfatal : s.fatal = false) :
    s.runCommand = .next (s.afterFault .illCmd .idle false) := by
  rw [runCommand_of_error h, illegalWord, State.runChecked, fatalCheck_pass_iff.2 hfatal]
  exact congrArg _ (raise_eq_afterFault s .illCmd (by decide))

/-- In the fatal state an illegal word, like a legal one, ends in `E_FATAL` (R309). -/
theorem runCommand_of_fatal {s : State} (hfatal : s.fatal = true) :
    s.runCommand = .next (s.afterFault .fatal .idle false) := by
  cases hdecode : decode s.cmd with
  | ok i => rw [runCommand_of_decode hdecode, exec_of_fatal i hfatal]
  | error e =>
    have hfirst : firstFault [(s.fatal, ErrCode.fatal)] = some .fatal := by rw [firstFault_cons, if_pos hfatal]
    rw [runCommand_of_error hdecode, illegalWord, State.runChecked, hfirst]
    exact congrArg _ (raise_eq_afterFault s .fatal (by decide))

/-- Settles O5: the engine's turn runs the word in progress, and that takes `E_ILLCMD` (`runCommand_of_illegal`). -/
theorem illegalWordTakesIllegalCommandFault : Obligations.IllegalWordTakesIllegalCommandFault :=
  fun s _ hb hfatal hdecode =>
    ⟨engineTurnIs_of_runCommand s _ hb fun _ => runCommand_of_illegal hdecode hfatal,
      (readReg_err_afterFault ..).trans (by decide)⟩

/-- Settles O6: the engine's turn runs the word in progress, and that takes `E_FATAL` (`runCommand_of_fatal`). -/
theorem fatalStateRefusesEveryWord : Obligations.FatalStateRefusesEveryWord := fun s hb hfatal =>
  ⟨engineTurnIs_of_runCommand s _ hb fun _ => runCommand_of_fatal hfatal, (readReg_err_afterFault ..).trans (by decide)⟩

/-! ### A step from the fatal state (R312, R313) -/

/-- The registers that only the engine writes, and no host move but the reset pulse: `FATAL`, the key with its lane and
`KEYVALID`, `BACKEND`, `ERR` and `OUT_LEN`. -/
def State.engineOwned (s : State) : Bool × Key × RoundKeys × Bool × Backend × ErrCode × Word :=
  (s.fatal, s.key, s.kl, s.keyValid, s.backend, s.err, s.outLen)

theorem engineOwned_eq_iff {s t : State} :
    t.engineOwned = s.engineOwned ↔
      t.fatal = s.fatal ∧ t.key = s.key ∧ t.kl = s.kl ∧ t.keyValid = s.keyValid ∧ t.backend = s.backend ∧
        t.err = s.err ∧ t.outLen = s.outLen := by
  simp only [State.engineOwned, Prod.mk.injEq]

/-- Apart from reset, the host reaches none of the engine's own registers, and `DMEM` only by its own write. -/
theorem hostMove_keeps_engineOwned {m : HostMove} {s t : State} (h : hostMove m s = .next t) :
    m = .pulseReset ∨
    (t.engineOwned = s.engineOwned ∧ ((∃ a x, m = .dmemWrite a x) ∨ t.dmem = s.dmem)) := by
  rcases hostMove_next m s t h with ⟨o, z, -, -, rfl⟩ | ⟨o, z, w, -, -, rfl⟩ | ⟨a, n, -, -, -, rfl⟩ |
    ⟨a, x, hm, -, -, rfl⟩ | ⟨-, rfl⟩ | ⟨hm, -⟩
  · rw [hostRegRead_frame s o]
    exact .inr ⟨rfl, .inr rfl⟩
  · rcases writeReg_cases s o w with e | e | e | e <;> rw [e] <;> exact .inr ⟨rfl, .inr rfl⟩
  · exact .inr ⟨rfl, .inr rfl⟩
  · exact .inr ⟨rfl, .inl ⟨a, x, hm⟩⟩
  · exact .inr ⟨rfl, .inr rfl⟩
  · exact .inl hm

/-- EVERYTHING A STEP FROM THE FATAL STATE CAN DO: it is the reset pulse; or it leaves the engine's own registers, and `DMEM`
unless it is the host's write to it; or it refuses the word in progress with `E_FATAL`. -/
theorem step_of_fatal {s t : State} (h : step s = .next t) (hfatal : s.fatal = true) :
    (∃ rest, s.turns = .host .pulseReset :: rest) ∨
    (t.engineOwned = s.engineOwned ∧ ((∃ a x rest, s.turns = .host (.dmemWrite a x) :: rest) ∨ t.dmem = s.dmem)) ∨
    ∃ left, t = { s with turns := left }.afterFault .fatal .idle false := by
  rcases step_next s t h with ⟨-, -, rfl⟩ | ⟨rest, -, -, rfl⟩ | ⟨rest, -, rfl⟩ | ⟨m, rest, hturn, -, hm⟩ |
    ⟨left, -, hrun⟩
  · exact .inr (.inl ⟨rfl, .inr rfl⟩)
  · exact .inr (.inl ⟨rfl, .inr rfl⟩)
  · rw [work_frame]
    exact .inr (.inl ⟨rfl, .inr rfl⟩)
  · rcases hostMove_keeps_engineOwned hm with rfl | ⟨howned, ⟨a, x, rfl⟩ | hdmem⟩
    · exact .inl ⟨rest, hturn⟩
    · exact .inr (.inl ⟨howned, .inl ⟨a, x, rest, hturn⟩⟩)
    · exact .inr (.inl ⟨howned, .inr hdmem⟩)
  · cases hrun.symm.trans (runCommand_of_fatal hfatal)
    exact .inr (.inr ⟨left, rfl⟩)

/-- Settles O33: of what `step_of_fatal` allows the reset is excluded, and the refusal sets `ERR` and clears `OUT_LEN`. -/
theorem onlyResetLeavesTheFatalState : Obligations.OnlyResetLeavesTheFatalState := by
  intro s t h hfatal hreset
  rcases step_of_fatal h hfatal with ⟨rest, hturn⟩ | ⟨howned, hdmem⟩ | ⟨left, rfl⟩
  · exact absurd hturn (hreset rest)
  · obtain ⟨hf, hkey, hkl, hvalid, hbackend, herr, hout⟩ := engineOwned_eq_iff.1 howned
    refine ⟨hf.trans hfatal, hkey, hkl, hvalid, hbackend, .inl herr, .inl hout, fun hwrite => ?_⟩
    exact hdmem.resolve_left fun ⟨a, x, rest, hturn⟩ => hwrite a x rest hturn
  · have hstays : (s.fatal || false) = true := by rw [hfatal, Bool.or_false]
    exact ⟨hstays, rfl, rfl, rfl, rfl, .inr rfl, .inr rfl, fun _ => rfl⟩

end Sys2Proof.Machine
end
